-- ==== Sys2Proof/Word.lean ====
section
/-! DEFINITION. The words of the machine: bytes of the wire and the buffers, 16-bit Modbus words, 32-bit microsecond
counts (00_scope R9, R10; 10_state R28, R33). -/

namespace Sys2Proof

/-- A byte of the wire or of a buffer (R9). -/
abbrev Byte := BitVec 8

/-- A Modbus address, quantity or register value (R9). -/
abbrev Word := BitVec 16

/-- A count of 1 µs ticks, or the baud rate (R28, R33). -/
abbrev Tick := BitVec 32

end Sys2Proof
end

