-- ==== Sys2Proof/Syntax.lean ====
section
/-! DEFINITION. The instruction set of the MBE: the Modbus function codes it decodes (00_scope R2, 30_encoding R104). One
constructor per row of the opcode table; the operands are those of the request forms RA, WS and WM (R92, R93, R94). -/

namespace Sys2Proof

/-- A request PDU: a function code and its operand fields. -/
inductive Instr where
  /-- RD_COILS, function code 1, form RA (R92, R160). -/
  | rdCoils (start qty : Word)
  /-- RD_DI, function code 2, form RA (R92, R167). -/
  | rdDi (start qty : Word)
  /-- RD_HR, function code 3, form RA (R92, R170). -/
  | rdHr (start qty : Word)
  /-- RD_IR, function code 4, form RA (R92, R177). -/
  | rdIr (start qty : Word)
  /-- WR_COIL, function code 5, form WS (R93, R190). -/
  | wrCoil (addr val : Word)
  /-- WR_REG, function code 6, form WS (R93, R195). -/
  | wrReg (addr val : Word)
  /-- WR_COILS, function code 15, form WM: `data` is the `bc` bytes of packed bits (R94, R100, R200). -/
  | wrCoils (start qty : Word) (bc : Byte) (data : List Byte)
  /-- WR_REGS, function code 16, form WM: `data` is the `bc` bytes of packed words (R94, R101, R210). -/
  | wrRegs (start qty : Word) (bc : Byte) (data : List Byte)
  /-- ILLEGAL_FC, every other function code (R105, R143). -/
  | illegalFc (fc : Byte)
  deriving DecidableEq, Repr

end Sys2Proof
end

