-- ==== Sys2Proof/WellFormed.lean ====
section
/-! DEFINITION. Which terms of Instr are requests: the data of a write-multiple is as long as its byte count says (R94), and
ILLEGAL_FC holds no listed function code (R105). -/

namespace Sys2Proof

/-- The function codes of the table of R104. -/
def listedCodes : List Byte := [1, 2, 3, 4, 5, 6, 15, 16]

/-- The checks on an instruction's fields. A byte count that disagrees with the quantity is well formed: the machine answers
it with an exception (R201). -/
def Instr.wf : Instr → Bool
  | .rdCoils _ _ => true
  | .rdDi _ _ => true
  | .rdHr _ _ => true
  | .rdIr _ _ => true
  | .wrCoil _ _ => true
  | .wrReg _ _ => true
  | .wrCoils _ _ bc data => data.length == bc.toNat
  | .wrRegs _ _ bc data => data.length == bc.toNat
  | .illegalFc fc => !listedCodes.contains fc

end Sys2Proof
end

