-- ==== Sys2Proof/Decode.lean ====
section
/-! DEFINITION. The decoder of request PDUs, total on any bytes and rejecting by name, and after it the encoder, both from
the forms RA, WS and WM (30_encoding R92 to R94) and the function-code map (R104). Also the byte helpers both use (R10). -/

namespace Sys2Proof

/-- be16(x, y) = x * 256 + y (R10, R65). -/
def be16 (x y : Byte) : Word := BitVec.ofNat 16 (x.toNat * 256 + y.toNat)

/-- hi8(w) = w[15:8] (R10). -/
def hi8 (w : Word) : Byte := w.extractLsb' 8 8

/-- lo8(w) = w[7:0] (R10). -/
def lo8 (w : Word) : Byte := w.extractLsb' 0 8

/-- Why a byte sequence holds no request. A running machine never meets one: its decoder reads the whole buffer, which is
longer than the longest request (log 7). -/
inductive DecodeError where
  /-- There is no byte at all, so no function code. -/
  | noFunctionCode
  /-- The operand fields of a listed function code end before their last byte. -/
  | operandsCut
  /-- The data of a write-multiple ends before its byte count is reached. -/
  | dataCut
  deriving DecidableEq, Repr

/-- Forms RA and WS: two big-endian words at PDU offsets 1 and 3; bytes beyond are ignored (R92, R93). -/
def decodeTwoWords (mk : Word → Word → Instr) : List Byte → Except DecodeError Instr
  | a1 :: a0 :: q1 :: q0 :: _ => .ok (mk (be16 a1 a0) (be16 q1 q0))
  | _ => .error .operandsCut

/-- Form WM: two words, a byte count and that many data bytes; bytes beyond are ignored (R94). -/
def decodeMultiple (mk : Word → Word → Byte → List Byte → Instr) : List Byte → Except DecodeError Instr
  | a1 :: a0 :: q1 :: q0 :: bc :: rest =>
    if bc.toNat ≤ rest.length then .ok (mk (be16 a1 a0) (be16 q1 q0) bc (rest.take bc.toNat))
    else .error .dataCut
  | _ => .error .operandsCut

/-- The decoder: the function code selects the form, by the table of R104; every unlisted code is ILLEGAL_FC (R105). -/
def decode : List Byte → Except DecodeError Instr
  | [] => .error .noFunctionCode
  | fc :: ops =>
    match fc.toNat with
    | 1 => decodeTwoWords .rdCoils ops
    | 2 => decodeTwoWords .rdDi ops
    | 3 => decodeTwoWords .rdHr ops
    | 4 => decodeTwoWords .rdIr ops
    | 5 => decodeTwoWords .wrCoil ops
    | 6 => decodeTwoWords .wrReg ops
    | 15 => decodeMultiple .wrCoils ops
    | 16 => decodeMultiple .wrRegs ops
    | _ => .ok (.illegalFc fc)

/-- Two big-endian words (R65). -/
def encodeTwoWords (a q : Word) : List Byte := [hi8 a, lo8 a, hi8 q, lo8 q]

/-- The encoder: the PDU bytes of a request (R92 to R94, R104). -/
def encode : Instr → List Byte
  | .rdCoils start qty => 1 :: encodeTwoWords start qty
  | .rdDi start qty => 2 :: encodeTwoWords start qty
  | .rdHr start qty => 3 :: encodeTwoWords start qty
  | .rdIr start qty => 4 :: encodeTwoWords start qty
  | .wrCoil addr val => 5 :: encodeTwoWords addr val
  | .wrReg addr val => 6 :: encodeTwoWords addr val
  | .wrCoils start qty bc data => 15 :: (encodeTwoWords start qty ++ bc :: data)
  | .wrRegs start qty bc data => 16 :: (encodeTwoWords start qty ++ bc :: data)
  | .illegalFc fc => [fc]

/-- The longest request PDU: function code, two words, byte count and 255 data bytes (R94). -/
def longestPdu : Nat := 261

/-- The bytes of an instruction numbered as the opcode table numbers them: the first byte holds bits 7..0, the second bits
15..8, and so on; bits at and above `nbits` are zero. The table names B[7] as the first byte. -/
def tableBytes (nbits w : Nat) : List Byte :=
  (List.range longestPdu).map fun k => BitVec.ofNat 8 ((w % 2 ^ nbits) / 256 ^ k)

/-- The instruction the decoder reads from a word of the opcode table. -/
def decodeTableWord (nbits w : Nat) : Option Instr :=
  match decode (tableBytes nbits w) with
  | .ok i => some i
  | .error _ => none

end Sys2Proof
end

