-- ==== Sys2Proof/Machine/Operands.lean ====
section
/-! DEFINITION. Operand forms: byte counts (R10), bits packed least significant first (R100) and words packed big-endian
(R96, R101). -/

namespace Sys2Proof.Machine

/-- ceil8(q) = (q + 7) div 8 (R10). -/
def ceil8 (q : Nat) : Nat := (q + 7) / 8

/-- Byte `i` of a sequence; the machine reads only offsets inside it. -/
def byteAt (bs : List Byte) (i : Nat) : Byte := bs.getD i 0

/-- The byte whose bit `j` is `f j`. -/
def byteOfBits (f : Nat → Bool) : Byte :=
  (List.range 8).foldl (fun acc j => if f j then acc ||| BitVec.twoPow 8 j else acc) 0

/-- The packed bits of a read response: element `i` at bit `i mod 8` of byte `i div 8`, the unused high bits 0 (R100). -/
def packBits (qty : Nat) (f : Nat → Bool) : List Byte :=
  (List.range (ceil8 qty)).map fun k => byteOfBits fun j => decide (8 * k + j < qty) && f (8 * k + j)

/-- Element `i` of the packed bits of a request (R100). -/
def bitOf (data : List Byte) (i : Nat) : BitVec 1 := BitVec.ofBool ((byteAt data (i / 8)).getLsbD (i % 8))

/-- The `qty` elements of the packed bits of a request, in order; unused bits are ignored (R100). -/
def unpackBits (qty : Nat) (data : List Byte) : List (BitVec 1) := (List.range qty).map (bitOf data)

/-- The packed words of a read response, each high byte first (R96). -/
def packWords (qty : Nat) (f : Nat → Word) : List Byte :=
  (List.range qty).flatMap fun i => [hi8 (f i), lo8 (f i)]

/-- Word `i` of the packed words of a request (R101). -/
def wordOf (data : List Byte) (i : Nat) : Word := be16 (byteAt data (2 * i)) (byteAt data (2 * i + 1))

/-- The `qty` words of a request, in order (R101). -/
def unpackWords (qty : Nat) (data : List Byte) : List Word := (List.range qty).map (wordOf data)

/-- The value word of WR_COIL read as a coil: any non-zero word sets it (R191). -/
def coilValue (v : Word) : BitVec 1 := if v = 0 then 0 else 1

end Sys2Proof.Machine
end

