-- ==== Sys2Proof/Config.lean ====
section
/-! DEFINITION. What an implementation fixes (00_scope R8), and the free values: constants without a body, of which nothing
can be proved. The parameters are a field of State that no step writes, so every statement holds for all of them (log 1). -/

namespace Sys2Proof

/-- The parameters of R8 that are plain values, and the constant BROADCAST_ADDR of R34. The slave id, the baud rate and the
guard interval are configuration registers (R33); the PDU handler is env.handler (log 9). -/
structure Params where
  /-- N_DI: capacity of the discrete inputs. -/
  nDi : Nat
  /-- N_CO: capacity of the coils. -/
  nCo : Nat
  /-- N_IR: capacity of the input registers. -/
  nIr : Nat
  /-- N_HR: capacity of the holding registers. -/
  nHr : Nat
  /-- BUF_CAP: bytes of the TCP buffer. -/
  bufCap : Nat
  /-- RX_CAP: bytes of the RTU frame buffer. -/
  rxCap : Nat
  /-- BROADCAST_ADDR (R34). -/
  broadcast : Byte
  deriving DecidableEq, Repr

/-- The ranges of the table of R8. -/
abbrev Params.wf (p : Params) : Prop :=
  (p.nDi ≤ 65536 ∧ p.nCo ≤ 65536 ∧ p.nIr ≤ 65536 ∧ p.nHr ≤ 65536) ∧
    268 ≤ p.bufCap ∧ 4 ≤ p.rxCap ∧ p.rxCap + 4 ≤ p.bufCap

/-- FREE VALUE. The bytes the spec calls 'any value': stale buffer bytes, response tails, the header of the scratch copy
(R64, R141, R146, R234; log 5). The machine draws them in order, counting in State.freeIx. -/
opaque Config.freeByte : Nat → Byte

/-- FREE VALUE. T15_US while CFG_BAUD is 0: the formula of R260 divides by zero there (log 16). -/
opaque Config.t15AtBaudZero : Tick

end Sys2Proof
end

