-- ==== Sys2Proof/Machine/Parameters.lean ====
section
/-! DEFINITION. The values the parameters of 00_scope R8 have in State.reset (logs 1 and 2). -/

namespace Sys2Proof.Machine

/-- DESIGN CHOICE (logs 1 and 2): the spec leaves the capacities and BUF_CAP open. 65536 covers every 16-bit address (D3),
268 is the smallest buffer R8 allows; RX_CAP 256 is its default (D11) and BROADCAST_ADDR 0x00 its decision (D5). -/
def defaultParams : Params :=
  { nDi := 65536, nCo := 65536, nIr := 65536, nHr := 65536, bufCap := 268, rxCap := 256, broadcast := 0 }

end Sys2Proof.Machine
end

