-- ==== Sys2Proof/Machine/State.lean ====
section
/-! DEFINITION. The state of the MBE (10_state R20 to R47, 20_memory R60) and of what it observes, as plain data; the reasons
a step can stop; the state after reset (70_reset R330). -/

namespace Sys2Proof.Machine

/-- PHASE (R21). -/
inductive Phase where
  | idle | accumulating | frameReady | dispatched | reply | suppressed | tcpBusy
  deriving DecidableEq, Repr

/-- TXPH (R22). -/
inductive TxPhase where
  | none | guard | preDelay | data | flush | postDelay
  deriving DecidableEq, Repr

/-- DISP (R23). -/
inductive Disposition where
  | normal | echo | suppressed
  deriving DecidableEq, Repr

/-- The exception codes of R106. The decoder raises the first three; the last two exist for the PDU handler port. -/
inductive ExceptionCode where
  | illegalFunction | illegalDataAddress | illegalDataValue | slaveDeviceFailure | slaveDeviceBusy
  deriving DecidableEq, Repr

/-- The bit spaces of the Register Store (R35). -/
inductive BitSpace where
  | di | co
  deriving DecidableEq, Repr

/-- The register spaces of the Register Store (R35). -/
inductive RegSpace where
  | ir | hr
  deriving DecidableEq, Repr

/-- One space of the Register Store: the elements that are not zero, with their addresses, addresses rising. An address not
listed reads as 0, the value every element has at reset (R35). -/
abbrev Cells (w : Nat) := List (Nat × BitVec w)

/-- The canonical form of a space of capacity `n`: addresses strictly rising and below the capacity, no zero listed. -/
abbrev Cells.wf {w : Nat} (n : Nat) (c : Cells w) : Prop :=
  c.Pairwise (fun x y => x.1 < y.1) ∧ ∀ e ∈ c, e.1 < n ∧ e.2 ≠ 0#w

/-- The six address spaces of R60. `b` and `frame` are buffers of fixed size, whose bytes may be free values, so they list
every byte (log 6). -/
structure Memory where
  /-- DI, the discrete inputs. -/
  di : Cells 1
  /-- CO, the coils. -/
  co : Cells 1
  /-- IR, the input registers. -/
  ir : Cells 16
  /-- HR, the holding registers. -/
  hr : Cells 16
  /-- B[0..BUF_CAP), the TCP buffer (R31). -/
  b : List Byte
  /-- FRAME[0..RX_CAP), the RTU frame buffer (R29). -/
  frame : List Byte
  deriving DecidableEq, Repr

/-- The form memory keeps: the store spaces canonical and within capacity, the buffers of their fixed sizes. -/
abbrev Memory.wf (p : Params) (m : Memory) : Prop :=
  (m.di.wf p.nDi ∧ m.co.wf p.nCo ∧ m.ir.wf p.nIr ∧ m.hr.wf p.nHr) ∧
    m.b.length = p.bufCap ∧ m.frame.length = p.rxCap

/-- The registers of the ADU decoder: ERR (R24), SIZE and RESP_LEN (R31), the request latches (R32). -/
structure Decoder where
  err : Bool
  size : Nat
  respLen : Nat
  lFc : Byte
  lAddr : Word
  lQty : Word
  lBc : Byte
  deriving DecidableEq, Repr

/-- CRC_HI and CRC_LO (R26). -/
structure CrcRegs where
  hi : Byte
  lo : Byte
  deriving DecidableEq, Repr

/-- PREV_CNT and CUR_CNT (R27). -/
structure Detector where
  prevCnt : Nat
  curCnt : Nat
  deriving DecidableEq, Repr

/-- DISP (R23), RESP_PDU and RESP_PDU_LEN (R30). -/
structure ReplyRegs where
  disp : Disposition
  respPdu : List Byte
  respPduLen : Nat
  deriving DecidableEq, Repr

/-- The transmit-enable controller: TXPH (R22) and TX_EN (R44). `todo` and `crcDue` are the MODEL's own: the position inside
the loop of DATA_PHASE, as the bytes still to write and whether the CRC has still to be computed (R266, R267; log 15). -/
structure TxCtl where
  txph : TxPhase
  txEn : Bool
  todo : List Byte
  crcDue : Bool
  deriving DecidableEq, Repr

/-- The configuration registers (R33), and which of them the host has written since reset (R220, R332). -/
structure CfgRegs where
  slaveId : Byte
  baud : Tick
  tGuard : Tick
  slaveIdWritten : Bool
  baudWritten : Bool
  tGuardWritten : Bool
  deriving DecidableEq, Repr

/-- The registers the configuration port can read (R33, R47). -/
inductive CfgReg where
  | slaveId | baud | tGuard | t15 | t35
  deriving DecidableEq, Repr

/-- What the host can do at its ports (R41, R45, R47), to the buffer it owns (R31) and by reset (R330). -/
inductive HostOp where
  /-- Fill B from offset 0 with a request (R41). -/
  | fillBuffer (bytes : List Byte)
  /-- TCP_PROCESS(size) (R41, R140). -/
  | tcpProcess (size : Nat)
  /-- RTU_CYCLE (R41, R220). -/
  | rtuCycle
  /-- Store host port, bit spaces (R45). -/
  | readBit (sp : BitSpace) (a : Nat)
  | writeBit (sp : BitSpace) (a : Nat) (v : BitVec 1)
  /-- Store host port, register spaces (R45). -/
  | readReg (sp : RegSpace) (a : Nat)
  | writeReg (sp : RegSpace) (a : Nat) (v : Word)
  /-- Configuration port (R47). -/
  | readConfig (r : CfgReg)
  | writeSlaveId (v : Byte)
  | writeBaud (v : Tick)
  | writeGuard (v : Tick)
  /-- Reset (R330). -/
  | reset
  deriving DecidableEq, Repr

/-- One pending action of the host: it is issued once `after` ticks have passed; with `overlap` at once, in the middle of a
running command too; without it, only when PHASE is Idle (log 10). -/
structure HostReq where
  after : Nat
  overlap : Bool
  op : HostOp
  deriving DecidableEq, Repr

/-- What the last host port operation returned (R41, R45, R47). MODEL's own (log 21). -/
inductive PortOut where
  | nothing
  | respLen (n : Nat)
  | bit (v : BitVec 1)
  | reg (v : Word)
  | config (v : Tick)
  deriving DecidableEq, Repr

/-- What the line does to the RX FIFO: a byte arrives, or the transport's treatment of an overflow leaves other contents
(R36, D32, D33, D36; log 12). -/
inductive LineAct where
  | byte (b : Byte)
  | replace (bytes : List Byte)
  deriving DecidableEq, Repr

/-- An action of the line, `delay` ticks after the one before it. -/
structure LineEvent where
  delay : Nat
  act : LineAct
  deriving DecidableEq, Repr

/-- How the transport treats one TxWrite: ticks it blocks, and ticks the byte stays in flight behind the one before it
(R43, D14; log 13). -/
structure TxTiming where
  accept : Nat
  leave : Nat
  deriving DecidableEq, Repr

/-- A byte accepted by the transmitter that has not left the line (R37). -/
structure InFlight where
  byte : Byte
  left : Nat
  deriving DecidableEq, Repr

/-- A store write of a replacement PDU handler (R46; log 9). -/
inductive StoreWrite where
  | bit (sp : BitSpace) (a : Nat) (v : BitVec 1)
  | reg (sp : RegSpace) (a : Nat) (v : Word)
  deriving DecidableEq, Repr

/-- What a replacement PDU handler answers: a response PDU, Normal or Echo, and its store writes (R46, R233; log 9). -/
structure HandlerAnswer where
  pdu : List Byte
  echo : Bool
  writes : List StoreWrite
  deriving DecidableEq, Repr

/-- What the MBE does not own: the transport (R36, R37), the host and a replacement PDU handler. -/
structure Env where
  /-- The RX FIFO, oldest byte first (R36). -/
  rxFifo : List Byte
  /-- The transmitter's bytes in flight, oldest first (R37). -/
  inFlight : List InFlight
  /-- MODEL's own (log 26): the bytes that have left the line, oldest first. -/
  sent : List Byte
  /-- MODEL's own (log 12): what the line will deliver. -/
  line : List LineEvent
  /-- MODEL's own (log 13): how the transport treats the next writes; none listed means at once. -/
  txTimings : List TxTiming
  /-- MODEL's own (log 10): pending host actions. -/
  host : List HostReq
  /-- MODEL's own (log 21): what the last host port operation returned. -/
  portOut : PortOut
  /-- MODEL's own (log 9): answers of a replacement PDU handler; none listed means the default handler of R234. -/
  handler : List HandlerAnswer
  deriving DecidableEq, Repr

/-- The state of the machine. -/
structure State where
  /-- The parameters of R8; no step writes them. -/
  params : Params
  phase : Phase
  dec : Decoder
  crc : CrcRegs
  det : Detector
  /-- GAP_TIMER (R28). -/
  gapTimer : Tick
  /-- FRAME_LEN (R29). -/
  frameLen : Nat
  reply : ReplyRegs
  tx : TxCtl
  cfg : CfgRegs
  mem : Memory
  env : Env
  /-- MODEL's own (log 5): how many free values have been drawn. -/
  freeIx : Nat
  deriving DecidableEq, Repr

/-- Why the machine stops with a fault. The spec gives the MBE no fault or hang state (93, Part 2). -/
inductive Fault where
  /-- Raised by decodeRequest when B is shorter than the request form it reads, which needs a state whose buffer is smaller
  than the 268 bytes R8 asks for; no step reaches one. Safe: the model stops where a machine of that size is not specified
  (log 22). -/
  | bufferTooShort
  deriving DecidableEq, Repr

/-- Why a step is refused: the host actions to which the spec gives no meaning (R303). All are safe: the model takes no step
where the spec gives none. -/
inductive Refusal where
  /-- Raised by exec for an instruction that has no meaning yet. Safe. -/
  | notModelled (mnemonic : String)
  /-- Raised by hostOp: a command while PHASE is not Idle (R41, R303). Safe. -/
  | commandWhileBusy
  /-- Raised by hostOp: TCP_PROCESS(size) with size > BUF_CAP (R41, R303). Safe. -/
  | sizeOverBuffer
  /-- Raised by hostOp: RTU_CYCLE before the configuration registers are written (R220, R332). Safe. -/
  | cycleUnconfigured
  /-- Raised by hostOp: RTU_CYCLE with CFG_BAUD = 0 (R220). Safe. -/
  | cycleBaudZero
  /-- Raised by hostOp: a store host-port access while PHASE is not Idle (R45, R303). Safe. -/
  | storeWhileBusy
  /-- Raised by hostOp: a store host-port access at or beyond the capacity (R45, R303). Safe. -/
  | storeOutOfRange
  /-- Raised by hostOp: a configuration-port access while PHASE is not Idle (R47, R303). Safe. -/
  | configWhileBusy
  /-- Raised by hostOp: a fill of B longer than BUF_CAP. Safe (log 11). -/
  | fillOverBuffer
  deriving DecidableEq, Repr

/-- What one step answers. -/
abbrev Result := Host.Outcome State Fault Refusal

/-- Reset for given parameters (R330), with nothing pending outside. Where R330 says 'any value' or gives none, the value is
zero (DESIGN CHOICE, log 3). -/
def State.resetWith (p : Params) : State where
  params := p
  phase := .idle
  dec := { err := false, size := 0, respLen := 0, lFc := 0, lAddr := 0, lQty := 0, lBc := 0 }
  crc := { hi := 0, lo := 0 }
  det := { prevCnt := 0, curCnt := 0 }
  gapTimer := 0#32
  frameLen := 0
  reply := { disp := .normal, respPdu := [], respPduLen := 0 }
  tx := { txph := .none, txEn := false, todo := [], crcDue := false }
  cfg := { slaveId := 0, baud := 0#32, tGuard := 0, slaveIdWritten := false, baudWritten := false, tGuardWritten := false }
  mem := { di := [], co := [], ir := [], hr := [], b := List.replicate p.bufCap 0, frame := List.replicate p.rxCap 0 }
  env := { rxFifo := [], inFlight := [], sent := [], line := [], txTimings := [], host := [], portOut := .nothing,
           handler := [] }
  freeIx := 0

/-- The machine right after reset (R330, R331). -/
def State.reset : State := State.resetWith defaultParams

end Sys2Proof.Machine
end

