-- ==== Sys2Proof/Machine/Flags.lean ====
section
/-! DEFINITION. The MBE has no arithmetic flags (R25). Its one decoder status bit is ERR, the address-error accumulator (R24),
and the bounds check that sets it (R63). -/

namespace Sys2Proof.Machine

/-- in_range(space, a) = (a < N_space), on an unbounded address (R63). -/
def inRange (n a : Nat) : Bool := decide (a < n)

/-- Is some element `start + i`, `i < qty`, out of range? The sum does not wrap (R63, D17). -/
def anyOutOfRange (n start qty : Nat) : Bool := (List.range qty).any fun i => !inRange n (start + i)

/-- ERR after the element loop over `start .. start + qty` (R24, R163, R173, R200, R210): once set it stays set. -/
def State.accumErr (n : Nat) (start qty : Word) (s : State) : State :=
  { s with dec := { s.dec with err := s.dec.err || anyOutOfRange n start.toNat qty.toNat } }

end Sys2Proof.Machine
end

