-- ==== Sys2Proof/Machine/Ops.lean ====
section
/-! DEFINITION. The named operations over the Register Store, the buffer B and the free values, and the two ends of a decode:
the exception encoder (R145), which is the MBE's taking of an exception, and the success response. There is no return from an
exception: raising one saves nothing and ends the decode (R306, R307). -/

namespace Sys2Proof.Machine

/-- `f` on a next state; a fault or a refusal passes through. -/
def onNext (o : Host.Outcome State Fault Refusal) (f : State → State) : Host.Outcome State Fault Refusal :=
  match o with
  | .next t => .next (f t)
  | .fault r => .fault r
  | .refused r => .refused r

/-! ### The Register Store (R61) -/

/-- Element `a` of a space. -/
def Cells.read {w : Nat} : Cells w → Nat → BitVec w
  | [], _ => 0#w
  | (k, v) :: rest, a => if a = k then v else Cells.read rest a

/-- Write element `a` of a space, keeping the canonical form: a zero is not listed. -/
def Cells.write {w : Nat} : Cells w → Nat → BitVec w → Cells w
  | [], a, v => if v = 0#w then [] else [(a, v)]
  | (k, x) :: rest, a, v =>
    if a < k then (if v = 0#w then (k, x) :: rest else (a, v) :: (k, x) :: rest)
    else if a = k then (if v = 0#w then rest else (a, v) :: rest)
    else (k, x) :: Cells.write rest a v

/-- Write consecutive elements in ascending order (R71), each in-range one at once (R202); an out-of-range element is not
accessed (R63). -/
def Cells.writeFrom {w : Nat} (n : Nat) : Nat → List (BitVec w) → Cells w → Cells w
  | _, [], c => c
  | a, v :: vs, c => Cells.writeFrom n (a + 1) vs (if inRange n a then c.write a v else c)

/-- The capacity of a bit space (R8). -/
def BitSpace.cap (p : Params) : BitSpace → Nat
  | .di => p.nDi
  | .co => p.nCo

/-- The capacity of a register space (R8). -/
def RegSpace.cap (p : Params) : RegSpace → Nat
  | .ir => p.nIr
  | .hr => p.nHr

/-- Store(space, a) of a bit space (R61). -/
def Memory.readBit (m : Memory) : BitSpace → Nat → BitVec 1
  | .di, a => m.di.read a
  | .co, a => m.co.read a

/-- Store(space, a) of a register space (R61). -/
def Memory.readReg (m : Memory) : RegSpace → Nat → Word
  | .ir, a => m.ir.read a
  | .hr, a => m.hr.read a

/-- Store(space, a) <- v of a bit space (R61). -/
def Memory.writeBit (m : Memory) : BitSpace → Nat → BitVec 1 → Memory
  | .di, a, v => { m with di := m.di.write a v }
  | .co, a, v => { m with co := m.co.write a v }

/-- Store(space, a) <- v of a register space (R61). -/
def Memory.writeReg (m : Memory) : RegSpace → Nat → Word → Memory
  | .ir, a, v => { m with ir := m.ir.write a v }
  | .hr, a, v => { m with hr := m.hr.write a v }

/-! ### Byte buffers (R64) -/

/-- Write consecutive bytes from offset `i` on. -/
def putBytes : Nat → List Byte → List Byte → List Byte
  | _, [], buf => buf
  | i, x :: xs, buf => putBytes (i + 1) xs (buf.set i x)

/-- B[i .. i + |xs|) <- xs (R64). -/
def State.putB (i : Nat) (xs : List Byte) (s : State) : State :=
  { s with mem := { s.mem with b := putBytes i xs s.mem.b } }

/-! ### Free values (log 5) -/

/-- `n` free bytes, the first with index `ix`. -/
def freeBytes (ix n : Nat) : List Byte := (List.range n).map fun k => Config.freeByte (ix + k)

/-- A free 32-bit value, from four free bytes. -/
def freeTick (ix : Nat) : Tick :=
  Config.freeByte ix ++ Config.freeByte (ix + 1) ++ Config.freeByte (ix + 2) ++ Config.freeByte (ix + 3)

/-- Every byte of B from offset `k` on becomes any value (R64, R146). -/
def State.redrawB (k : Nat) (s : State) : State :=
  { s with
    mem := { s.mem with b := s.mem.b.take k ++ freeBytes s.freeIx (s.mem.b.length - k) }
    freeIx := s.freeIx + (s.mem.b.length - k) }

/-! ### The request latches (R32) -/

/-- L_ADDR <- a; L_QTY <- q. -/
def State.latch (a q : Word) (s : State) : State := { s with dec := { s.dec with lAddr := a, lQty := q } }

/-- L_BC <- bc (R201). -/
def State.latchBc (bc : Byte) (s : State) : State := { s with dec := { s.dec with lBc := bc } }

/-- L_FC <- fc (R142). -/
def State.latchFc (fc : Byte) (s : State) : State := { s with dec := { s.dec with lFc := fc } }

/-! ### The ends of a decode -/

/-- The code of an exception (R106). -/
def ExceptionCode.toByte : ExceptionCode → Byte
  | .illegalFunction => 1
  | .illegalDataAddress => 2
  | .illegalDataValue => 3
  | .slaveDeviceFailure => 4
  | .slaveDeviceBusy => 6

/-- The decode answers `len` bytes: RESP_LEN <- len (R140), and every byte beyond is any value (R146). -/
def State.finish (len : Nat) (s : State) : State :=
  let t := s.redrawB len
  { t with dec := { t.dec with respLen := len } }

/-- raise ModbusException(code): the exception response in place, 9 bytes (R99, R145). Nothing is saved (R306). -/
def State.raise (code : ExceptionCode) (s : State) : State :=
  let b := putBytes 7 [byteAt s.mem.b 7 ||| 0x80, code.toByte] (putBytes 4 [0x00, 0x03] s.mem.b)
  State.finish 9 { s with mem := { s.mem with b := b } }

/-- A success response of `6 + len` bytes: the length field, and the end of the decode (R91, R164, R174). -/
def State.respond (len : Nat) (s : State) : State :=
  (s.putB 4 [hi8 (BitVec.ofNat 16 len), lo8 (BitVec.ofNat 16 len)]).finish (6 + len)

/-- The acknowledgment of the write functions: forms WSR and WMR (R97, R98). -/
def State.acknowledge (s : State) : State := (s.putB 4 [0x00, 0x06]).finish 12

/-- The short check and the latching that open every listed function (R161, R171, R190, R195, R200, R210). -/
def State.withOperands (a q : Word) (s : State) (k : State → State) : State :=
  if s.dec.size < 12 then s.raise .illegalDataValue else k (s.latch a q)

end Sys2Proof.Machine
end

