-- ==== Sys2Proof/Machine/Illegal.lean ====
section
/-! DEFINITION. ILLEGAL_FC: every function code outside the table (41_adu_dispatch R143). -/

namespace Sys2Proof.Machine

/-- ILLEGAL_FC raises IllegalFunction, whatever its code and length (R143). -/
def execIllegalFc (_fc : Byte) (s : State) : Host.Outcome State Fault Refusal := .next (s.raise .illegalFunction)

end Sys2Proof.Machine
end

