-- ==== Sys2Proof/Machine/Read.lean ====
section
/-! DEFINITION. The read functions FC1 to FC4 (42_read_functions R160 to R177). -/

namespace Sys2Proof.Machine

/-- READ_BITS(space, N) after the short check (R162 to R164). An out-of-range position leaves its response bit 0 and sets
ERR; all positions are processed, and ERR is read once after the last. -/
def readBitsBody (sp : BitSpace) (start qty : Word) (s : State) : State :=
  let n := sp.cap s.params
  let bc := ceil8 qty.toNat
  if 255 < bc then s.raise .illegalDataAddress
  else
    let packed := packBits qty.toNat fun i =>
      inRange n (start.toNat + i) && decide (s.mem.readBit sp (start.toNat + i) = 1)
    let t := (s.putB 8 (BitVec.ofNat 8 bc :: packed)).accumErr n start qty
    if t.dec.err then t.raise .illegalDataAddress else t.respond (3 + bc)

/-- READ_BITS(space, N) (R161 to R164). -/
def readBits (sp : BitSpace) (start qty : Word) (s : State) : State :=
  s.withOperands start qty (readBitsBody sp start qty)

/-- READ_REGS(space, N) after the short check (R172 to R174). The bytes of an out-of-range word are not written: they keep
what B held (R173). -/
def readRegsBody (sp : RegSpace) (start qty : Word) (s : State) : State :=
  let n := sp.cap s.params
  let bc := 2 * qty.toNat
  if 255 < bc then s.raise .illegalDataAddress
  else
    let packed := packWords qty.toNat fun i =>
      if inRange n (start.toNat + i) then s.mem.readReg sp (start.toNat + i)
      else be16 (byteAt s.mem.b (9 + 2 * i)) (byteAt s.mem.b (10 + 2 * i))
    let t := (s.putB 8 (BitVec.ofNat 8 bc :: packed)).accumErr n start qty
    if t.dec.err then t.raise .illegalDataAddress else t.respond (3 + bc)

/-- READ_REGS(space, N) (R171 to R174). -/
def readRegs (sp : RegSpace) (start qty : Word) (s : State) : State :=
  s.withOperands start qty (readRegsBody sp start qty)

/-- RD_COILS (R160). -/
def execRdCoils (start qty : Word) (s : State) : Host.Outcome State Fault Refusal := .next (readBits .co start qty s)

/-- RD_DI (R167). -/
def execRdDi (start qty : Word) (s : State) : Host.Outcome State Fault Refusal := .next (readBits .di start qty s)

/-- RD_HR (R170). -/
def execRdHr (start qty : Word) (s : State) : Host.Outcome State Fault Refusal := .next (readRegs .hr start qty s)

/-- RD_IR (R177). -/
def execRdIr (start qty : Word) (s : State) : Host.Outcome State Fault Refusal := .next (readRegs .ir start qty s)

end Sys2Proof.Machine
end

