-- ==== Sys2Proof/Machine/Write.lean ====
section
/-! DEFINITION. The write functions FC5, FC6, FC15 and FC16 (43_write_functions R190 to R211). Only CO and HR are written
(R62). -/

namespace Sys2Proof.Machine

/-- WR_COIL after the short check (R190, R191). -/
def wrCoilBody (addr val : Word) (s : State) : State :=
  if inRange s.params.nCo addr.toNat then
    State.acknowledge { s with mem := s.mem.writeBit .co addr.toNat (coilValue val) }
  else s.raise .illegalDataAddress

/-- WR_REG after the short check (R195). -/
def wrRegBody (addr val : Word) (s : State) : State :=
  if inRange s.params.nHr addr.toNat then
    State.acknowledge { s with mem := s.mem.writeReg .hr addr.toNat val }
  else s.raise .illegalDataAddress

/-- CHECK_PAYLOAD(expected) passes, as a comparison of integers (R201). -/
def payloadOk (expected : Nat) (bc : Byte) (s : State) : Bool :=
  decide (13 + bc.toNat ≤ s.dec.size) && decide (bc.toNat = expected)

/-- The end of a write-multiple: ERR is read once, after every in-range element has been written (R202). -/
def closeMultiple (s : State) : State :=
  if s.dec.err then s.raise .illegalDataAddress else s.acknowledge

/-- WR_COILS after the short check (R200 to R203). -/
def wrCoilsBody (start qty : Word) (bc : Byte) (data : List Byte) (s : State) : State :=
  if payloadOk (ceil8 qty.toNat) bc s then
    let t := s.latchBc bc
    let co := Cells.writeFrom t.params.nCo start.toNat (unpackBits qty.toNat data) t.mem.co
    closeMultiple (State.accumErr t.params.nCo start qty { t with mem := { t.mem with co := co } })
  else s.raise .illegalDataValue

/-- WR_REGS after the short check (R201, R202, R210, R211). -/
def wrRegsBody (start qty : Word) (bc : Byte) (data : List Byte) (s : State) : State :=
  if payloadOk (2 * qty.toNat) bc s then
    let t := s.latchBc bc
    let hr := Cells.writeFrom t.params.nHr start.toNat (unpackWords qty.toNat data) t.mem.hr
    closeMultiple (State.accumErr t.params.nHr start qty { t with mem := { t.mem with hr := hr } })
  else s.raise .illegalDataValue

/-- WR_COIL (R190). -/
def execWrCoil (addr val : Word) (s : State) : Host.Outcome State Fault Refusal :=
  .next (s.withOperands addr val (wrCoilBody addr val))

/-- WR_REG (R195). -/
def execWrReg (addr val : Word) (s : State) : Host.Outcome State Fault Refusal :=
  .next (s.withOperands addr val (wrRegBody addr val))

/-- WR_COILS (R200). -/
def execWrCoils (start qty : Word) (bc : Byte) (data : List Byte) (s : State) : Host.Outcome State Fault Refusal :=
  .next (s.withOperands start qty (wrCoilsBody start qty bc data))

/-- WR_REGS (R210). -/
def execWrRegs (start qty : Word) (bc : Byte) (data : List Byte) (s : State) : Host.Outcome State Fault Refusal :=
  .next (s.withOperands start qty (wrRegsBody start qty bc data))

end Sys2Proof.Machine
end

