-- ==== Sys2Proof/Machine/Dispatch.lean ====
section
/-! DEFINITION. The dispatch of 41_adu_dispatch R142: one arm per instruction, each one call of its meaning. -/

namespace Sys2Proof.Machine

def exec (i : Instr) (s : State) : Host.Outcome State Fault Refusal :=
  match i with
  | .rdCoils start qty => Sys2Proof.Machine.execRdCoils start qty s
  | .rdDi start qty => Sys2Proof.Machine.execRdDi start qty s
  | .rdHr start qty => Sys2Proof.Machine.execRdHr start qty s
  | .rdIr start qty => Sys2Proof.Machine.execRdIr start qty s
  | .wrCoil addr val => Sys2Proof.Machine.execWrCoil addr val s
  | .wrReg addr val => Sys2Proof.Machine.execWrReg addr val s
  | .wrCoils start qty bc data => Sys2Proof.Machine.execWrCoils start qty bc data s
  | .wrRegs start qty bc data => Sys2Proof.Machine.execWrRegs start qty bc data s
  | .illegalFc fc => Sys2Proof.Machine.execIllegalFc fc s

end Sys2Proof.Machine
end

