-- ==== Sys2Proof/Machine/Decoder.lean ====
section
/-! DEFINITION. The ADU decoder: DECODE() over the buffer B, and the TCP operation (41_adu_dispatch R140 to R147). -/

namespace Sys2Proof.Machine

/-- DECODE() over B with SIZE (R141, R142): the bytes at and beyond SIZE are any value (R64); a request of fewer than 8 bytes
has no function code; otherwise the function code is latched and the instruction that B holds is executed. -/
def decodeRequest (s : State) : Host.Outcome State Fault Refusal :=
  let t := s.redrawB s.dec.size
  if s.dec.size < 8 then .next (t.raise .illegalFunction)
  else
    match decode (t.mem.b.drop 7) with
    | .ok i => exec i (t.latchFc (byteAt t.mem.b 7))
    | .error _ => .fault .bufferTooShort

/-- The opening of TCP_PROCESS(size): PHASE, SIZE and ERR (R140). -/
def tcpEnter (size : Nat) (s : State) : State :=
  { s with phase := .tcpBusy, dec := { s.dec with size := size, err := false } }

/-- The rest of TCP_PROCESS: RESP_LEN <- DECODE(), PHASE <- Idle, return RESP_LEN (R140). -/
def tcpRun (s : State) : Host.Outcome State Fault Refusal :=
  onNext (decodeRequest s) fun t =>
    { t with phase := .idle, env := { t.env with portOut := .respLen t.dec.respLen } }

end Sys2Proof.Machine
end

