-- ==== Sys2Proof/Machine/Environment.lean ====
section
/-! DEFINITION. What passes outside the MBE: the line delivers bytes to the RX FIFO (10_state R36), the transmitter's bytes
leave the line (R37), and time passes (45_tx_control R263). -/

namespace Sys2Proof.Machine

/-- The FIFO after one action of the line. -/
def LineAct.apply : LineAct → List Byte → List Byte
  | .byte b, fifo => fifo ++ [b]
  | .replace bytes, _ => bytes

/-- Every leading action without delay takes place now. -/
def deliver : List LineEvent → List Byte → List LineEvent × List Byte
  | [], fifo => ([], fifo)
  | e :: rest, fifo => if e.delay = 0 then deliver rest (e.act.apply fifo) else (e :: rest, fifo)

/-- The line over one tick: the first action is due when its delay has run down, and brings those without delay with it. -/
def tickLine : List LineEvent → List Byte → List LineEvent × List Byte
  | [], fifo => ([], fifo)
  | e :: rest, fifo =>
    if e.delay ≤ 1 then deliver rest (e.act.apply fifo) else ({ e with delay := e.delay - 1 } :: rest, fifo)

/-- The leading bytes in flight whose time has run down leave the line, in order (R43): those that leave, and the rest. -/
def leaveReady : List InFlight → List Byte × List InFlight
  | [] => ([], [])
  | f :: rest => if f.left = 0 then (f.byte :: (leaveReady rest).1, (leaveReady rest).2) else ([], f :: rest)

/-- The oldest byte in flight over one tick. -/
def tickFlight : List InFlight → List InFlight
  | [] => []
  | f :: rest => { f with left := f.left - 1 } :: rest

/-- The next host action over one tick (log 10). -/
def tickHost : List HostReq → List HostReq
  | [] => []
  | h :: rest => { h with after := h.after - 1 } :: rest

/-- Bytes in flight whose time has run down leave the line. -/
def Env.settle (e : Env) : Env :=
  { e with inFlight := (leaveReady e.inFlight).2, sent := e.sent ++ (leaveReady e.inFlight).1 }

/-- The outside world over one tick. -/
def Env.tick (e : Env) : Env :=
  Env.settle
    { e with
      line := (tickLine e.line e.rxFifo).1
      rxFifo := (tickLine e.line e.rxFifo).2
      inFlight := tickFlight e.inFlight
      host := tickHost e.host }

/-- One tick of the 1 µs time base: GAP_TIMER counts down while it is above 0, and the sequencer does nothing else (R263). -/
def State.tick (s : State) : State :=
  { s with gapTimer := if s.gapTimer = 0#32 then 0#32 else s.gapTimer - 1, env := s.env.tick }

/-- The transport's treatment of the next TxWrite; none listed means at once (log 13). -/
def Env.nextTiming (e : Env) : TxTiming := e.txTimings.headD { accept := 0, leave := 0 }

/-- The transport accepts a byte (R43). -/
def Env.txAccept (b : Byte) (e : Env) : Env :=
  Env.settle
    { e with inFlight := e.inFlight ++ [{ byte := b, left := e.nextTiming.leave }], txTimings := e.txTimings.tail }

/-- One tick of a TxWrite that the transport blocks (R43). -/
def Env.txBlock (e : Env) : Env :=
  { e with txTimings := { e.nextTiming with accept := e.nextTiming.accept - 1 } :: e.txTimings.tail }

end Sys2Proof.Machine
end

