-- ==== Sys2Proof/Machine/Timing.lean ====
section
/-! DEFINITION. T1.5 and T3.5 in microseconds, derived from CFG_BAUD (45_tx_control R260, R261). -/

namespace Sys2Proof.Machine

/-- T15_US (R260). At baud 0 the formula has no value: a free one (log 16). -/
def t15Of (baud : Tick) : Tick :=
  if baud = 0#32 then Config.t15AtBaudZero
  else if 19200 < baud.toNat then 750
  else BitVec.ofNat 32 (16500000 / baud.toNat)

/-- T35_US (R261). -/
def t35Of (baud : Tick) : Tick := BitVec.ofNat 32 ((t15Of baud).toNat * 7 / 2)

end Sys2Proof.Machine
end

