-- ==== Sys2Proof/Machine/Rtu.lean ====
section
/-! DEFINITION. The RTU frame detector, frame validation and dispatch (44_rtu_frame R220 to R235). -/

namespace Sys2Proof.Machine

/-- The cycle ends: PHASE <- Idle (R223, R232, R235). -/
def endCycle (s : State) : State := { s with phase := .idle }

/-- The opening of an accepted RTU_CYCLE (R220). -/
def rtuEnter (s : State) : State :=
  { s with phase := .accumulating, reply := { s.reply with disp := .normal }, det := { s.det with prevCnt := 0 } }

/-- A poll that saw no growth: the frame is complete with `n` bytes, which are read out (R223, R224). -/
def readOut (n : Nat) (s : State) : State :=
  if n = 0 then endCycle s
  else if s.params.rxCap < n then endCycle { s with env := { s.env with rxFifo := s.env.rxFifo.drop n } }
  else
    { s with
      phase := .frameReady
      frameLen := n
      mem := { s.mem with frame := putBytes 0 (s.env.rxFifo.take n) s.mem.frame }
      env := { s.env with rxFifo := s.env.rxFifo.drop n } }

/-- One poll of the frame detector: growth starts another T1.5 wait, no growth ends the frame (R222). -/
def poll (s : State) : State :=
  let n := s.env.rxFifo.length
  let t := { s with det := { s.det with curCnt := n } }
  if s.det.prevCnt < n then { t with det := { t.det with prevCnt := n }, gapTimer := t15Of s.cfg.baud }
  else readOut n t

/-- PHASE = Accumulating: wait, then poll (R222). -/
def accumulate (s : State) : State := if s.gapTimer = 0#32 then poll s else s.tick

/-- The address byte of the frame (R102). -/
def frameAddr (s : State) : Byte := byteAt s.mem.frame 0

/-- The PDU of the frame: FRAME[1 .. FRAME_LEN-2) (R102, R228). -/
def framePdu (s : State) : List Byte := (s.mem.frame.take (s.frameLen - 2)).drop 1

/-- The received CRC, high byte first (R66, R228). -/
def frameCrc (s : State) : Word := be16 (byteAt s.mem.frame (s.frameLen - 2)) (byteAt s.mem.frame (s.frameLen - 1))

/-- PHASE = FrameReady: the length, the address and the CRC are checked in this order; a frame that fails one is silently
discarded (R226 to R230, R232). -/
def validate (s : State) : State :=
  if s.frameLen < 4 then endCycle s
  else if frameAddr s ≠ s.cfg.slaveId ∧ frameAddr s ≠ s.params.broadcast then endCycle s
  else
    let t := { s with crc := crcRegsOf (frameAddr s) (framePdu s) }
    if t.crc.result = frameCrc s then { t with phase := .dispatched } else endCycle t

/-- The scratch copy V of R234 in place of B, with SIZE = 7 + |pdu|. -/
def scratch (pdu : List Byte) (a : Byte) (s : State) : State :=
  { s with
    mem := { s.mem with b := putBytes 6 (a :: pdu) (freeBytes s.freeIx s.params.bufCap) }
    dec := { s.dec with size := 7 + pdu.length, err := false }
    freeIx := s.freeIx + s.params.bufCap }

/-- RESP_PDU <- resp; RESP_PDU_LEN <- |resp|; DISP <- req (R233). -/
def State.setReply (resp : List Byte) (req : Disposition) (s : State) : State :=
  { s with reply := { disp := req, respPdu := resp, respPduLen := resp.length } }

/-- The default PDU handler: the decoder over the scratch copy; the response PDU is V[7..len), the disposition Normal (R234).
B, SIZE and RESP_LEN are the TCP operation's and stay (log 8). -/
def defaultHandler (pdu : List Byte) (a : Byte) (s : State) : Host.Outcome State Fault Refusal :=
  onNext (decodeRequest (scratch pdu a s)) fun t =>
    State.setReply ((t.mem.b.take t.dec.respLen).drop 7) .normal
      { t with
        mem := { t.mem with b := s.mem.b }
        dec := { t.dec with size := s.dec.size, respLen := s.dec.respLen } }

/-- One store write of a replacement handler; an address out of range is not accessed (R61; log 9). -/
def StoreWrite.apply (p : Params) (m : Memory) : StoreWrite → Memory
  | .bit sp a v => if inRange (sp.cap p) a then m.writeBit sp a v else m
  | .reg sp a v => if inRange (sp.cap p) a then m.writeReg sp a v else m

/-- A replacement PDU handler's answer takes effect (R46, R233; log 9). -/
def applyAnswer (ans : HandlerAnswer) (s : State) : State :=
  State.setReply ans.pdu (if ans.echo then .echo else .normal)
    { s with mem := ans.writes.foldl (StoreWrite.apply s.params) s.mem }

/-- PDU_HANDLER(pdu, a): a replacement's next answer, or the default handler (R46, R234; log 9). -/
def runHandler (s : State) : Host.Outcome State Fault Refusal :=
  match s.env.handler with
  | [] => defaultHandler (framePdu s) (frameAddr s) s
  | ans :: rest => .next (applyAnswer ans { s with env := { s.env with handler := rest } })

/-- After the handler: a broadcast forces Suppressed, and DISP selects the next phase (R231, R233). -/
def afterHandler (a : Byte) (s : State) : State :=
  let disp := if a = s.params.broadcast then .suppressed else s.reply.disp
  { s with
    reply := { s.reply with disp := disp }
    phase := if disp = .suppressed then .suppressed else .reply }

/-- PHASE = Dispatched: the PDU is handed to the PDU handler, in one atomic step (R233, R72). -/
def dispatchFrame (s : State) : Host.Outcome State Fault Refusal :=
  onNext (runHandler s) (afterHandler (frameAddr s))

end Sys2Proof.Machine
end

