-- ==== Sys2Proof/Machine/HostPort.lean ====
section
/-! DEFINITION. The host's ports: commands (10_state R41), the store port (R45), the configuration port (R47), the buffer it
owns (R31), and reset (70_reset R330). What the spec gives no meaning is refused (60_exceptions R303). -/

namespace Sys2Proof.Machine

/-- What a host port operation returned (log 21). -/
def State.answer (v : PortOut) (s : State) : State := { s with env := { s.env with portOut := v } }

/-- An operation that may be used only while PHASE = Idle. -/
def onlyIdle (r : Refusal) (s : State) (f : Host.Outcome State Fault Refusal) : Host.Outcome State Fault Refusal :=
  if s.phase = .idle then f else .refused r

/-- A store host-port access: only while Idle, and only within capacity (R45). -/
def storeAccess (n a : Nat) (s : State) (t : State) : Host.Outcome State Fault Refusal :=
  onlyIdle .storeWhileBusy s (if inRange n a then .next t else .refused .storeOutOfRange)

/-- A configuration-port access: only while Idle (R47). -/
def configAccess (s t : State) : Host.Outcome State Fault Refusal := onlyIdle .configWhileBusy s (.next t)

/-- The host fills B[0..|bytes|) (R41; log 11). -/
def fillBuffer (bytes : List Byte) (s : State) : Host.Outcome State Fault Refusal :=
  if bytes.length ≤ s.params.bufCap then .next (s.putB 0 bytes) else .refused .fillOverBuffer

/-- TCP_PROCESS(size) (R41, R140). -/
def tcpProcess (size : Nat) (s : State) : Host.Outcome State Fault Refusal :=
  onlyIdle .commandWhileBusy s
    (if size ≤ s.params.bufCap then tcpRun (tcpEnter size s) else .refused .sizeOverBuffer)

/-- Have all three configuration registers been written since reset (R220, R332)? -/
def configured (c : CfgRegs) : Bool := c.slaveIdWritten && c.baudWritten && c.tGuardWritten

/-- RTU_CYCLE (R41, R220). -/
def rtuCycle (s : State) : Host.Outcome State Fault Refusal :=
  onlyIdle .commandWhileBusy s
    (if configured s.cfg then (if s.cfg.baud = 0#32 then .refused .cycleBaudZero else .next (rtuEnter s))
     else .refused .cycleUnconfigured)

/-- The value of a configuration register, narrower ones zero-extended (R33). -/
def CfgRegs.read (c : CfgRegs) : CfgReg → Tick
  | .slaveId => c.slaveId.setWidth 32
  | .baud => c.baud
  | .tGuard => c.tGuard
  | .t15 => t15Of c.baud
  | .t35 => t35Of c.baud

/-- Reset of a running machine (R330). Where the table says 'any value' or gives none, the value is free; a transmission
stops; what lies outside stays (log 4). -/
def hostReset (s : State) : State :=
  let r := State.resetWith s.params
  let ix := s.freeIx
  { r with
    crc := { hi := Config.freeByte ix, lo := Config.freeByte (ix + 1) }
    dec := { r.dec with
      lFc := Config.freeByte (ix + 2)
      lAddr := be16 (Config.freeByte (ix + 3)) (Config.freeByte (ix + 4))
      lQty := be16 (Config.freeByte (ix + 5)) (Config.freeByte (ix + 6))
      lBc := Config.freeByte (ix + 7) }
    cfg := { r.cfg with
      slaveId := Config.freeByte (ix + 8)
      baud := freeTick (ix + 9)
      tGuard := freeTick (ix + 13) }
    mem := { r.mem with
      b := freeBytes (ix + 17) s.params.bufCap
      frame := freeBytes (ix + 17 + s.params.bufCap) s.params.rxCap }
    env := { s.env with inFlight := [], portOut := .nothing }
    freeIx := ix + 17 + s.params.bufCap + s.params.rxCap }

/-- A host action, already taken off the queue. -/
def hostOp (op : HostOp) (s : State) : Host.Outcome State Fault Refusal :=
  match op with
  | .fillBuffer bytes => fillBuffer bytes s
  | .tcpProcess size => tcpProcess size s
  | .rtuCycle => rtuCycle s
  | .readBit sp a => storeAccess (sp.cap s.params) a s (s.answer (.bit (s.mem.readBit sp a)))
  | .writeBit sp a v => storeAccess (sp.cap s.params) a s { s with mem := s.mem.writeBit sp a v }
  | .readReg sp a => storeAccess (sp.cap s.params) a s (s.answer (.reg (s.mem.readReg sp a)))
  | .writeReg sp a v => storeAccess (sp.cap s.params) a s { s with mem := s.mem.writeReg sp a v }
  | .readConfig r => configAccess s (s.answer (.config (s.cfg.read r)))
  | .writeSlaveId v => configAccess s { s with cfg := { s.cfg with slaveId := v, slaveIdWritten := true } }
  | .writeBaud v => configAccess s { s with cfg := { s.cfg with baud := v, baudWritten := true } }
  | .writeGuard v => configAccess s { s with cfg := { s.cfg with tGuard := v, tGuardWritten := true } }
  | .reset => .next (hostReset s)

end Sys2Proof.Machine
end

