-- ==== Sys2Proof/Machine/Transmit.lean ====
section
/-! DEFINITION. The half-duplex transmit-enable controller: PHASE = Reply (45_tx_control R263 to R269). -/

namespace Sys2Proof.Machine

/-- TXPH <- p; wait(t) (R263, R265). -/
def enterWait (p : TxPhase) (t : Tick) (s : State) : State :=
  { s with tx := { s.tx with txph := p }, gapTimer := t }

/-- A wait that leads on to `next` when GAP_TIMER has reached 0 (R263). -/
def whileWaiting (next : State → State) (s : State) : State := if s.gapTimer = 0#32 then next s else s.tick

/-- TX_EN <- 1, and the guard interval (R265). -/
def startReply (s : State) : State :=
  enterWait .guard s.cfg.tGuard { s with tx := { s.tx with txEn := true } }

/-- The bytes DATA_PHASE writes before any CRC: slave id and response PDU, or the whole frame (R266, R267). -/
def dataBytes (s : State) : List Byte :=
  match s.reply.disp with
  | .normal => s.cfg.slaveId :: s.reply.respPdu.take s.reply.respPduLen
  | .echo => s.mem.frame.take s.frameLen
  | .suppressed => []

/-- TXPH <- Data; DATA_PHASE begins (R264, R265). -/
def startData (s : State) : State :=
  { s with tx := { s.tx with txph := .data, todo := dataBytes s, crcDue := decide (s.reply.disp = .normal) } }

/-- TxWrite of the next byte of DATA_PHASE, which may block (R43). -/
def writeNext (b : Byte) (rest : List Byte) (s : State) : State :=
  if s.env.nextTiming.accept = 0 then
    { s with tx := { s.tx with todo := rest }, env := s.env.txAccept b }
  else State.tick { s with env := s.env.txBlock }

/-- c <- crc16(CFG_SLAVE_ID, RESP_PDU); its two bytes are written next, high byte first (R266). -/
def queueCrc (s : State) : State :=
  let c := crcRegsOf s.cfg.slaveId (s.reply.respPdu.take s.reply.respPduLen)
  { s with crc := c, tx := { s.tx with todo := [hi8 c.result, lo8 c.result], crcDue := false } }

/-- DATA_PHASE: one TxWrite, the CRC of a Normal reply after the PDU, then TXPH <- Flush (R265 to R267). -/
def dataPhase (s : State) : State :=
  match s.tx.todo with
  | b :: rest => writeNext b rest s
  | [] => if s.tx.crcDue then queueCrc s else { s with tx := { s.tx with txph := .flush } }

/-- TxFlush() returns when no byte is in flight; then wait(T35_US) (R43, R265). -/
def flushPhase (s : State) : State :=
  if s.env.inFlight = [] then enterWait .postDelay (t35Of s.cfg.baud) s else s.tick

/-- TX_EN <- 0; TXPH <- None; PHASE <- Idle (R236, R265). -/
def endReply (s : State) : State :=
  endCycle { s with tx := { s.tx with txph := .none, txEn := false } }

/-- One step of the transmission sequence (R265). -/
def transmit (s : State) : State :=
  match s.tx.txph with
  | .none => startReply s
  | .guard => whileWaiting (enterWait .preDelay (t35Of s.cfg.baud)) s
  | .preDelay => whileWaiting startData s
  | .data => dataPhase s
  | .flush => flushPhase s
  | .postDelay => whileWaiting endReply s

end Sys2Proof.Machine
end

