-- ==== Sys2Proof/Machine/Step.lean ====
section
/-! DEFINITION. One step of the machine: a host action that is due, or one zero-time action of the sequencer, or one tick
(log 14). -/

namespace Sys2Proof.Machine

/-- One step of the sequencer in its PHASE (R237). In Idle only time passes. A state in TcpBusy is inside the atomic
TCP_PROCESS; no step leaves one behind (R140; log 20). -/
def sequence (s : State) : Host.Outcome State Fault Refusal :=
  match s.phase with
  | .idle => .next s.tick
  | .accumulating => .next (accumulate s)
  | .frameReady => .next (validate s)
  | .dispatched => dispatchFrame s
  | .reply => .next (transmit s)
  | .suppressed => .next (endCycle s)
  | .tcpBusy => tcpRun s

/-- Is a host action issued now (log 10)? -/
def HostReq.due (h : HostReq) (s : State) : Bool := h.after == 0 && (h.overlap || decide (s.phase = .idle))

/-- One step: a due host action comes first, otherwise the sequencer moves (R41; logs 10 and 14). -/
def step (s : State) : Host.Outcome State Fault Refusal :=
  match s.env.host with
  | [] => sequence s
  | h :: rest => if h.due s then hostOp h.op { s with env := { s.env with host := rest } } else sequence s

/-- The request the host would place for an instruction of the opcode table: a zero header, then the instruction's bytes. -/
def fetchImage (nbits w : Nat) : List Byte := List.replicate 7 0 ++ tableBytes nbits w

/-- `s` with the instruction placed where the next step fetches: B holds it after a zero header, the machine is Idle, and the
host issues TCP_PROCESS over the whole image at once (R41; log 19). -/
def State.withFetchWord (s : State) (nbits w : Nat) : State :=
  { s with
    phase := .idle
    mem := { s.mem with b := fetchImage nbits w ++ s.mem.b.drop (fetchImage nbits w).length }
    env := { s.env with
      host := { after := 0, overlap := false, op := .tcpProcess (fetchImage nbits w).length } :: s.env.host } }

end Sys2Proof.Machine
end

