-- ==== Sys2Proof/Safety.lean ====
section
/-! DEFINITION. What counts as a safe run: the invariant every step keeps, and the facts of a state in which the machine never
stops with a fault. -/

namespace Sys2Proof.Machine

/-- Where TX_EN is 1: exactly while TXPH is a step of the transmission sequence, and only in PHASE Reply (R22, R268). -/
abbrev State.txLegal (s : State) : Prop :=
  (s.tx.txEn = true ↔ s.tx.txph ≠ .none) ∧ (s.tx.txph ≠ .none → s.phase = .reply)

/-- A running RTU cycle was accepted with its configuration written and a baud rate that is not 0 (R220). -/
abbrev State.cycleConfigured (s : State) : Prop :=
  s.phase ≠ .idle → s.phase ≠ .tcpBusy → configured s.cfg = true ∧ s.cfg.baud ≠ 0#32

/-- FRAME_LEN counts bytes of FRAME (R29, R224); a dispatched frame passed the length check (R226). -/
abbrev State.frameLegal (s : State) : Prop :=
  s.frameLen ≤ s.params.rxCap ∧ (s.phase = .dispatched → 4 ≤ s.frameLen)

/-- RESP_PDU_LEN counts the bytes of RESP_PDU (R30), and a Suppressed disposition never reaches Reply (R264). -/
abbrev State.replyLegal (s : State) : Prop :=
  s.reply.respPduLen = s.reply.respPdu.length ∧ (s.phase = .reply → s.reply.disp ≠ .suppressed)

/-- The invariant of the machine between steps. -/
abbrev State.Inv (s : State) : Prop :=
  s.params.wf ∧ s.mem.wf s.params ∧ s.txLegal ∧ s.cycleConfigured ∧ s.frameLegal ∧ s.replyLegal ∧ s.phase ≠ .tcpBusy

end Sys2Proof.Machine
end

