-- ==== Sys2Proof/Certificates/Slice0/Obligations.lean ====
section
/-! DEFINITION. The statements for the provers, and the words they are said in. Each docstring names the rule of spec/ it
formalises; 'D<n>' is a decision of 92_eei_decisions, 'log <n>' a row of notes/assumptions. -/

open Sys2Proof Sys2Proof.Machine

namespace Sys2Proof.Claims

/-- Outside the decoder's registers, the store, B and the count of free values, `t` is `s`. -/
abbrev outsideSame (s t : State) : Prop :=
  t.params = s.params ∧ t.phase = s.phase ∧ t.crc = s.crc ∧ t.det = s.det ∧ t.gapTimer = s.gapTimer ∧
    t.frameLen = s.frameLen ∧ t.reply = s.reply ∧ t.tx = s.tx ∧ t.cfg = s.cfg ∧ t.env = s.env ∧
    t.mem.frame = s.mem.frame

/-- Every element of the Register Store reads as before. -/
abbrev storeSame (s t : State) : Prop :=
  (∀ sp a, t.mem.readBit sp a = s.mem.readBit sp a) ∧ (∀ sp a, t.mem.readReg sp a = s.mem.readReg sp a)

/-- The decoder's registers other than RESP_LEN: L_FC and SIZE are kept, the others are these. -/
abbrev decoderRegs (s t : State) (a q : Word) (bc : Byte) (err : Bool) : Prop :=
  t.dec.lFc = s.dec.lFc ∧ t.dec.size = s.dec.size ∧ t.dec.lAddr = a ∧ t.dec.lQty = q ∧ t.dec.lBc = bc ∧ t.dec.err = err

/-- The response is form EXC with this code (R99); every other byte below RESP_LEN is the request's. -/
abbrev exceptionAnswer (s t : State) (code : Byte) : Prop :=
  t.dec.respLen = 9 ∧ t.mem.b.length = s.mem.b.length ∧
    byteAt t.mem.b 4 = 0x00 ∧ byteAt t.mem.b 5 = 0x03 ∧ byteAt t.mem.b 7 = byteAt s.mem.b 7 ||| 0x80 ∧
    byteAt t.mem.b 8 = code ∧
    ∀ k < 9, k ≠ 4 → k ≠ 5 → k ≠ 7 → k ≠ 8 → byteAt t.mem.b k = byteAt s.mem.b k

/-- The response is form WSR or WMR (R97, R98); every other byte below RESP_LEN is the request's. -/
abbrev acknowledged (s t : State) : Prop :=
  t.dec.respLen = 12 ∧ t.mem.b.length = s.mem.b.length ∧ byteAt t.mem.b 4 = 0x00 ∧ byteAt t.mem.b 5 = 0x06 ∧
    ∀ k < 12, k ≠ 4 → k ≠ 5 → byteAt t.mem.b k = byteAt s.mem.b k

/-- The opening of form RB or RR with byte count `bc` (R95, R96); bytes 0-3, 6 and 7 are the request's. -/
abbrev readAnswer (s t : State) (bc : Nat) : Prop :=
  t.dec.respLen = 9 + bc ∧ t.mem.b.length = s.mem.b.length ∧
    byteAt t.mem.b 4 = hi8 (BitVec.ofNat 16 (3 + bc)) ∧ byteAt t.mem.b 5 = lo8 (BitVec.ofNat 16 (3 + bc)) ∧
    byteAt t.mem.b 8 = BitVec.ofNat 8 bc ∧
    ∀ k < 8, k ≠ 4 → k ≠ 5 → byteAt t.mem.b k = byteAt s.mem.b k

/-- With fewer than 12 bytes the instruction completes with exception IllegalDataValue: no field is latched, no element
accessed, and ERR stays. -/
abbrev shortAnswer (i : Instr) (s : State) : Prop :=
  s.dec.size < 12 → ∃ t, exec i s = .next t ∧ exceptionAnswer s t 0x03 ∧ storeSame s t ∧ outsideSame s t ∧
    decoderRegs s t s.dec.lAddr s.dec.lQty s.dec.lBc s.dec.err

/-- The read of each bit space: RD_DI and RD_COILS. -/
abbrev bitRead : BitSpace → Word → Word → Instr
  | .di => .rdDi
  | .co => .rdCoils

/-- The read of each register space: RD_IR and RD_HR. -/
abbrev regRead : RegSpace → Word → Word → Instr
  | .ir => .rdIr
  | .hr => .rdHr

/-- Function code `fc` opens a request of form RA or WS of the instruction `mk` (R92, R93). -/
abbrev twoWordForm (fc : Byte) (mk : Word → Word → Instr) : Prop :=
  ∀ (a1 a0 q1 q0 : Byte) (rest : List Byte),
    decode (fc :: a1 :: a0 :: q1 :: q0 :: rest) = .ok (mk (be16 a1 a0) (be16 q1 q0))

/-- Function code `fc` opens a request of form WM of the instruction `mk` (R94). -/
abbrev multipleForm (fc : Byte) (mk : Word → Word → Byte → List Byte → Instr) : Prop :=
  ∀ (a1 a0 q1 q0 bc : Byte) (data rest : List Byte), data.length = bc.toNat →
    decode (fc :: a1 :: a0 :: q1 :: q0 :: bc :: (data ++ rest)) = .ok (mk (be16 a1 a0) (be16 q1 q0) bc data)

/-- The instructions of the table of R104 (all but ILLEGAL_FC). -/
abbrev listed (i : Instr) : Prop := ∀ fc, i ≠ .illegalFc fc

/-- The four reads. -/
abbrev isRead (i : Instr) : Prop :=
  ∃ start qty, i = .rdCoils start qty ∨ i = .rdDi start qty ∨ i = .rdHr start qty ∨ i = .rdIr start qty

/-- One reflected shift step of polynomial 0xA001 (R125, R126). -/
def shiftStep (c : Word) : Word := if c.getLsbD 0 then (c >>> 1) ^^^ 0xA001 else c >>> 1

/-- Eight shift steps: S (R125). -/
def shiftEight (c : Word) : Word :=
  shiftStep (shiftStep (shiftStep (shiftStep (shiftStep (shiftStep (shiftStep (shiftStep c)))))))

/-- The canonical CRC-16/MODBUS (R126). -/
def canon (bytes : List Byte) : Word := bytes.foldl (fun c x => shiftEight (c ^^^ x.setWidth 16)) 0xFFFF

/-- The checks of validation: length, address, CRC (R226, R227, R229). -/
abbrev frameValid (s : State) : Prop :=
  4 ≤ s.frameLen ∧ (frameAddr s = s.cfg.slaveId ∨ frameAddr s = s.params.broadcast) ∧
    crc16 (frameAddr s) (framePdu s) = frameCrc s

/-- The bytes handed to the transmitter so far, in order: those that have left the line, then those in flight. -/
abbrev transmitted (s : State) : List Byte := s.env.sent ++ s.env.inFlight.map (·.byte)

/-- Host action `op` is the next one, and it is issued now. -/
abbrev issues (s : State) (op : HostOp) : Prop :=
  ∃ h rest, s.env.host = h :: rest ∧ h.op = op ∧ h.after = 0 ∧ (h.overlap = true ∨ s.phase = .idle)

/-- No host action is issued now: none is pending, or the next one still waits. -/
abbrev hostSilent (s : State) : Prop := ∀ op, ¬issues s op

/-- `s` with the issued host action taken off the queue. -/
abbrev popped (s : State) : State := { s with env := { s.env with host := s.env.host.tail } }

/-- Bit `a` of `sp` after a handler's store writes: the last in-range write to it, or else its old value (R46, R61). -/
def bitAfterWrites (p : Params) (sp : BitSpace) (a : Nat) (old : BitVec 1) (ws : List StoreWrite) : BitVec 1 :=
  ws.foldl (fun x w =>
    match w with
    | .bit sp' a' v => if sp' = sp ∧ a' = a ∧ a < sp.cap p then v else x
    | .reg _ _ _ => x) old

/-- Register `a` of `sp` after a handler's store writes: the last in-range write to it, or else its old value. -/
def regAfterWrites (p : Params) (sp : RegSpace) (a : Nat) (old : Word) (ws : List StoreWrite) : Word :=
  ws.foldl (fun x w =>
    match w with
    | .bit _ _ _ => x
    | .reg sp' a' v => if sp' = sp ∧ a' = a ∧ a < sp.cap p then v else x) old

/-- A reply of these bytes is due: slave id and response PDU, or the received frame (R266, R267). -/
abbrev replyBytes (s : State) : List Byte :=
  match s.reply.disp with
  | .normal => s.cfg.slaveId :: s.reply.respPdu.take s.reply.respPduLen
  | .echo => s.mem.frame.take s.frameLen
  | .suppressed => []

/-- The B bytes a request image of `i` starts with, at the PDU offset 7 (R90). -/
abbrev holdsRequest (b : List Byte) (i : Instr) : Prop := (b.drop 7).take (encode i).length = encode i

end Sys2Proof.Claims

open Sys2Proof.Claims

/-! ### Encoding -/

/-- R90, R92 to R94, R104: the decoder reads back every well-formed request, whatever bytes follow it. -/
def Obligations.DecodeOfEncodeGivesTheInstruction : Prop :=
  ∀ (i : Instr) (rest : List Byte), i.wf = true → decode (encode i ++ rest) = .ok i

/-- R92 to R94, R104: what the decoder reads is well formed, and the bytes it read are the instruction's encoding. -/
def Obligations.DecodedBytesBeginWithTheEncoding : Prop :=
  ∀ (bs : List Byte) (i : Instr), decode bs = .ok i → i.wf = true ∧ encode i <+: bs

/-- R92 to R94, R104: words written out from the tables decode to the instruction they stand for. -/
def Obligations.WrittenOutRequestsDecode : Prop :=
  decode [0x01, 0x00, 0x13, 0x00, 0x25] = .ok (.rdCoils 0x0013 0x0025) ∧
    decode [0x02, 0x00, 0xC4, 0x00, 0x16] = .ok (.rdDi 0x00C4 0x0016) ∧
    decode [0x03, 0x00, 0x6B, 0x00, 0x03] = .ok (.rdHr 0x006B 0x0003) ∧
    decode [0x04, 0x00, 0x08, 0x00, 0x01] = .ok (.rdIr 0x0008 0x0001) ∧
    decode [0x05, 0x00, 0xAC, 0xFF, 0x00] = .ok (.wrCoil 0x00AC 0xFF00) ∧
    decode [0x06, 0x00, 0x01, 0x12, 0x34] = .ok (.wrReg 0x0001 0x1234) ∧
    decode [0x0F, 0x00, 0x02, 0x00, 0x0A, 0x02, 0xCD, 0x01] = .ok (.wrCoils 0x0002 0x000A 0x02 [0xCD, 0x01]) ∧
    decode [0x10, 0x00, 0x01, 0x00, 0x01, 0x02, 0x00, 0x0A] = .ok (.wrRegs 0x0001 0x0001 0x02 [0x00, 0x0A]) ∧
    decode [0xC8] = .ok (.illegalFc 0xC8)

/-- R94, R105: on as many bytes as the longest request has, the decoder reads some instruction. -/
def Obligations.LongEnoughBytesAlwaysDecode : Prop :=
  ∀ bs : List Byte, 261 ≤ bs.length → ∃ i, decode bs = .ok i ∧ bs.head? = (encode i).head?

/-! ### The instructions: results, completion and frame -/

/-- R160, R167 (with R92, R161 to R164): RD_COILS and RD_DI: their request form, and every case. D2 (byte order), D15 (bit
order), D17 (no wrap) and D40 (quantity 0) are the spec's own decisions, log 23. -/
def Obligations.ReadBitsAnswersThePackedBits : Prop :=
  twoWordForm 1 (bitRead .co) ∧ twoWordForm 2 (bitRead .di) ∧
    ∀ (sp : BitSpace) (start qty : Word) (s : State), 268 ≤ s.mem.b.length → s.dec.err = false →
    shortAnswer (bitRead sp start qty) s ∧
    (12 ≤ s.dec.size → ∃ t, exec (bitRead sp start qty) s = .next t ∧ storeSame s t ∧ outsideSame s t ∧
      (255 < ceil8 qty.toNat → exceptionAnswer s t 0x02 ∧ decoderRegs s t start qty s.dec.lBc false) ∧
      (ceil8 qty.toNat ≤ 255 → (∃ i < qty.toNat, sp.cap s.params ≤ start.toNat + i) →
        exceptionAnswer s t 0x02 ∧ decoderRegs s t start qty s.dec.lBc true) ∧
      (ceil8 qty.toNat ≤ 255 → (∀ i < qty.toNat, start.toNat + i < sp.cap s.params) →
        readAnswer s t (ceil8 qty.toNat) ∧ decoderRegs s t start qty s.dec.lBc false ∧
        ∀ i < 8 * ceil8 qty.toNat, (byteAt t.mem.b (9 + i / 8)).getLsbD (i % 8) =
          (decide (i < qty.toNat) && decide (s.mem.readBit sp (start.toNat + i) = 1))))

/-- R170, R177 (with R92, R171 to R174): RD_HR and RD_IR: their request form, and every case. D2 (byte order), D17 (no wrap)
and D40 (quantity 0) are the spec's own decisions, log 23. -/
def Obligations.ReadRegsAnswersTheWords : Prop :=
  twoWordForm 3 (regRead .hr) ∧ twoWordForm 4 (regRead .ir) ∧
    ∀ (sp : RegSpace) (start qty : Word) (s : State), 268 ≤ s.mem.b.length → s.dec.err = false →
    shortAnswer (regRead sp start qty) s ∧
    (12 ≤ s.dec.size → ∃ t, exec (regRead sp start qty) s = .next t ∧ storeSame s t ∧ outsideSame s t ∧
      (255 < 2 * qty.toNat → exceptionAnswer s t 0x02 ∧ decoderRegs s t start qty s.dec.lBc false) ∧
      (2 * qty.toNat ≤ 255 → (∃ i < qty.toNat, sp.cap s.params ≤ start.toNat + i) →
        exceptionAnswer s t 0x02 ∧ decoderRegs s t start qty s.dec.lBc true) ∧
      (2 * qty.toNat ≤ 255 → (∀ i < qty.toNat, start.toNat + i < sp.cap s.params) →
        readAnswer s t (2 * qty.toNat) ∧ decoderRegs s t start qty s.dec.lBc false ∧
        ∀ i < qty.toNat,
          byteAt t.mem.b (9 + 2 * i) = hi8 (s.mem.readReg sp (start.toNat + i)) ∧
          byteAt t.mem.b (10 + 2 * i) = lo8 (s.mem.readReg sp (start.toNat + i))))

/-- R162, R172: where the ceiling of 255 data bytes lies, as a quantity. -/
def Obligations.ReadCeilingAsAQuantity : Prop :=
  ∀ qty : Word, (255 < ceil8 qty.toNat ↔ 2041 ≤ qty.toNat) ∧ (255 < 2 * qty.toNat ↔ 128 ≤ qty.toNat)

/-- R190, R191 (with R93, R97): WR_COIL: its request form, and every case. D2 (byte order), D41 (any non-zero word sets the
coil) and D43 (length field 6, RESP_LEN 12) are the spec's own decisions, log 23. -/
def Obligations.WriteCoilSetsItsCoil : Prop :=
  twoWordForm 5 .wrCoil ∧ ∀ (addr val : Word) (s : State), 268 ≤ s.mem.b.length → s.mem.wf s.params →
    shortAnswer (.wrCoil addr val) s ∧
    (12 ≤ s.dec.size → ∃ t, exec (.wrCoil addr val) s = .next t ∧ outsideSame s t ∧
      decoderRegs s t addr val s.dec.lBc s.dec.err ∧
      (s.params.nCo ≤ addr.toNat → exceptionAnswer s t 0x02 ∧ storeSame s t) ∧
      (addr.toNat < s.params.nCo → acknowledged s t ∧
        t.mem.readBit .co addr.toNat = (if val = 0x0000 then 0 else 1) ∧
        (∀ sp a, (sp ≠ .co ∨ a ≠ addr.toNat) → t.mem.readBit sp a = s.mem.readBit sp a) ∧
        ∀ sp a, t.mem.readReg sp a = s.mem.readReg sp a))

/-- R195 (with R93, R97): WR_REG: its request form, and every case. D2 (byte order) and D43 (length field 6, RESP_LEN 12)
are the spec's own decisions, log 23. -/
def Obligations.WriteRegStoresTheWordVerbatim : Prop :=
  twoWordForm 6 .wrReg ∧ ∀ (addr val : Word) (s : State), 268 ≤ s.mem.b.length → s.mem.wf s.params →
    shortAnswer (.wrReg addr val) s ∧
    (12 ≤ s.dec.size → ∃ t, exec (.wrReg addr val) s = .next t ∧ outsideSame s t ∧
      decoderRegs s t addr val s.dec.lBc s.dec.err ∧
      (s.params.nHr ≤ addr.toNat → exceptionAnswer s t 0x02 ∧ storeSame s t) ∧
      (addr.toNat < s.params.nHr → acknowledged s t ∧
        t.mem.readReg .hr addr.toNat = val ∧
        (∀ sp a, (sp ≠ .hr ∨ a ≠ addr.toNat) → t.mem.readReg sp a = s.mem.readReg sp a) ∧
        ∀ sp a, t.mem.readBit sp a = s.mem.readBit sp a))

/-- R200, R202 (with R94, R98, R201): WR_COILS: its request form, and every case; the in-range coils of the request are
written whether or not a later one is out of range. D2, D15, D17 (no wrap), D18 (integer comparison), D40 (quantity 0), D42
(no rollback) and D43 (length field 6) are the spec's own decisions, log 23. -/
def Obligations.WriteCoilsSetsEveryInRangeCoil : Prop :=
  multipleForm 15 .wrCoils ∧ ∀ (start qty : Word) (bc : Byte) (data : List Byte) (s : State),
    268 ≤ s.mem.b.length → s.dec.err = false → s.mem.wf s.params →
    shortAnswer (.wrCoils start qty bc data) s ∧
    (12 ≤ s.dec.size → ∃ t, exec (.wrCoils start qty bc data) s = .next t ∧ outsideSame s t ∧
      (¬(13 + bc.toNat ≤ s.dec.size ∧ bc.toNat = ceil8 qty.toNat) →
        exceptionAnswer s t 0x03 ∧ storeSame s t ∧ decoderRegs s t start qty s.dec.lBc false) ∧
      (13 + bc.toNat ≤ s.dec.size ∧ bc.toNat = ceil8 qty.toNat →
        (∀ a, t.mem.readBit .co a =
          if start.toNat ≤ a ∧ a < start.toNat + qty.toNat ∧ a < s.params.nCo then bitOf data (a - start.toNat)
          else s.mem.readBit .co a) ∧
        (∀ a, t.mem.readBit .di a = s.mem.readBit .di a) ∧ (∀ sp a, t.mem.readReg sp a = s.mem.readReg sp a) ∧
        ((∀ i < qty.toNat, start.toNat + i < s.params.nCo) → acknowledged s t ∧ decoderRegs s t start qty bc false) ∧
        ((∃ i < qty.toNat, s.params.nCo ≤ start.toNat + i) →
          exceptionAnswer s t 0x02 ∧ decoderRegs s t start qty bc true)))

/-- R210, R202 (with R94, R98, R201): WR_REGS: its request form, and every case; the in-range registers of the request are
written whether or not a later one is out of range. D2, D17, D18, D40, D42 and D43 are the spec's own decisions, log 23. -/
def Obligations.WriteRegsStoresEveryInRangeWord : Prop :=
  multipleForm 16 .wrRegs ∧ ∀ (start qty : Word) (bc : Byte) (data : List Byte) (s : State),
    268 ≤ s.mem.b.length → s.dec.err = false → s.mem.wf s.params →
    shortAnswer (.wrRegs start qty bc data) s ∧
    (12 ≤ s.dec.size → ∃ t, exec (.wrRegs start qty bc data) s = .next t ∧ outsideSame s t ∧
      (¬(13 + bc.toNat ≤ s.dec.size ∧ bc.toNat = 2 * qty.toNat) →
        exceptionAnswer s t 0x03 ∧ storeSame s t ∧ decoderRegs s t start qty s.dec.lBc false) ∧
      (13 + bc.toNat ≤ s.dec.size ∧ bc.toNat = 2 * qty.toNat →
        (∀ a, t.mem.readReg .hr a =
          if start.toNat ≤ a ∧ a < start.toNat + qty.toNat ∧ a < s.params.nHr then wordOf data (a - start.toNat)
          else s.mem.readReg .hr a) ∧
        (∀ a, t.mem.readReg .ir a = s.mem.readReg .ir a) ∧ (∀ sp a, t.mem.readBit sp a = s.mem.readBit sp a) ∧
        ((∀ i < qty.toNat, start.toNat + i < s.params.nHr) → acknowledged s t ∧ decoderRegs s t start qty bc false) ∧
        ((∃ i < qty.toNat, s.params.nHr ≤ start.toNat + i) →
          exceptionAnswer s t 0x02 ∧ decoderRegs s t start qty bc true)))

/-- R143: every unlisted function code decodes to ILLEGAL_FC, and that completes with exception IllegalFunction, whatever
the request's length; store and flags stay. -/
def Obligations.UnlistedCodeAnswersIllegalFunction : Prop :=
  ∀ (fc : Byte) (rest : List Byte) (s : State), fc ∉ [(1 : Byte), 2, 3, 4, 5, 6, 15, 16] → 268 ≤ s.mem.b.length →
    decode (fc :: rest) = .ok (.illegalFc fc) ∧
    ∃ t, exec (.illegalFc fc) s = .next t ∧ exceptionAnswer s t 0x01 ∧ storeSame s t ∧ outsideSame s t ∧
      decoderRegs s t s.dec.lAddr s.dec.lQty s.dec.lBc s.dec.err

/-- R145, R106: the exception encoder writes these bytes and no other below RESP_LEN, and touches nothing else; the codes.
-/
def Obligations.ExceptionEncoderWritesFourBytes : Prop :=
  (∀ (code : ExceptionCode) (s : State), 9 ≤ s.mem.b.length →
    exceptionAnswer s (s.raise code) code.toByte ∧ storeSame s (s.raise code) ∧ outsideSame s (s.raise code) ∧
      decoderRegs s (s.raise code) s.dec.lAddr s.dec.lQty s.dec.lBc s.dec.err) ∧
  ExceptionCode.illegalFunction.toByte = 1 ∧ ExceptionCode.illegalDataAddress.toByte = 2 ∧
    ExceptionCode.illegalDataValue.toByte = 3 ∧ ExceptionCode.slaveDeviceFailure.toByte = 4 ∧
    ExceptionCode.slaveDeviceBusy.toByte = 6

/-- R91, R106, R301: whatever an instruction does, bytes 0-3 and 6 of its response are the request's, RESP_LEN is 6 plus the
length field, and it is one of the exceptions 1, 2, 3 or it keeps the function code. -/
def Obligations.EveryResponseHasTheHeaderForm : Prop :=
  ∀ (i : Instr) (s t : State), 268 ≤ s.mem.b.length → exec i s = .next t →
    t.dec.respLen = 6 + (be16 (byteAt t.mem.b 4) (byteAt t.mem.b 5)).toNat ∧ 9 ≤ t.dec.respLen ∧
      t.dec.respLen ≤ 264 ∧
    (∀ k ∈ [0, 1, 2, 3, 6], byteAt t.mem.b k = byteAt s.mem.b k) ∧
    (byteAt t.mem.b 7 = byteAt s.mem.b 7 ∨ ∃ code ∈ [(1 : Byte), 2, 3], exceptionAnswer s t code)

/-- R146 (D21): after any instruction every byte of B at or beyond RESP_LEN is a free value, drawn for this response. -/
def Obligations.BytesBeyondTheResponseAreFree : Prop :=
  ∀ (i : Instr) (s t : State), 268 ≤ s.mem.b.length → exec i s = .next t →
    ∀ k, t.dec.respLen ≤ k → k < t.mem.b.length → byteAt t.mem.b k = Config.freeByte (s.freeIx + (k - t.dec.respLen)) ∧
      s.freeIx + (k - t.dec.respLen) < t.freeIx

/-- R62, R166: no instruction writes DI or IR, the reads and ILLEGAL_FC write no element, FC5 and FC15 write no register and
FC6 and FC16 no coil. -/
def Obligations.RequestsWriteOnlyTheirOwnSpace : Prop :=
  ∀ (i : Instr) (s t : State), exec i s = .next t →
    t.mem.di = s.mem.di ∧ t.mem.ir = s.mem.ir ∧
    ((isRead i ∨ ¬listed i) → t.mem.co = s.mem.co ∧ t.mem.hr = s.mem.hr) ∧
    ((∃ a v, i = .wrCoil a v) ∨ (∃ a q bc d, i = .wrCoils a q bc d) → t.mem.hr = s.mem.hr) ∧
    ((∃ a v, i = .wrReg a v) ∨ (∃ a q bc d, i = .wrRegs a q bc d) → t.mem.co = s.mem.co)

/-- R129, R306, R309: every instruction completes in every state, and none touches the CRC engine, the frame detector, the
transmitter, the configuration or anything outside the decoder, the store and B. -/
def Obligations.EveryInstructionCompletesInsideTheDecoder : Prop :=
  ∀ (i : Instr) (s : State), ∃ t, exec i s = .next t ∧ outsideSame s t ∧ t.mem.b.length = s.mem.b.length

/-- R170 and the source's round trip: a word written by WR_REG is read back by RD_HR, high byte first. -/
def Obligations.WrittenRegisterReadsBack : Prop :=
  ∀ (addr val : Word) (s : State), 268 ≤ s.mem.b.length → s.mem.wf s.params → 12 ≤ s.dec.size →
    addr.toNat < s.params.nHr →
    ∃ t, exec (.wrReg addr val) s = .next t ∧
      ∀ u : State, u.mem.hr = t.mem.hr → u.params = t.params → 12 ≤ u.dec.size → u.dec.err = false →
        268 ≤ u.mem.b.length →
        ∃ v, exec (.rdHr addr 1) u = .next v ∧ v.dec.respLen = 11 ∧ byteAt v.mem.b 8 = 2 ∧
          byteAt v.mem.b 9 = hi8 val ∧ byteAt v.mem.b 10 = lo8 val

/-! ### The CRC engine -/

/-- R125, R127: the two tables are the eight-shift-step tables of polynomial 0xA001. -/
def Obligations.CrcTablesAreTheShiftSteps : Prop :=
  ∀ i : Fin 256, byteAt tblHi i = lo8 (shiftEight (BitVec.ofNat 16 i)) ∧
    byteAt tblLo i = hi8 (shiftEight (BitVec.ofNat 16 i))

/-- R126: the table-driven CRC is the canonical one with its bytes swapped. The spec marks it as derived. -/
def Obligations.CrcIsTheByteSwappedCanonicalCrc : Prop :=
  ∀ (a : Byte) (p : List Byte), crc16 a p = be16 (lo8 (canon (a :: p))) (hi8 (canon (a :: p)))

/-- R128: folding a frame with its own CRC leaves 0. The spec marks it as derived. -/
def Obligations.FrameWithItsCrcFoldsToZero : Prop :=
  ∀ (a : Byte) (p : List Byte),
    crcRegsOf a (p ++ [hi8 (crc16 a p), lo8 (crc16 a p)]) = { hi := 0x00, lo := 0x00 }

/-! ### TCP_PROCESS and the step -/

/-- R140, R142: a step that issues TCP_PROCESS runs exactly the instruction that B holds, and what the step adds around
exec. -/
def Obligations.TcpStepRunsTheDecodedInstruction : Prop :=
  ∀ (s : State) (size : Nat) (i : Instr), s.phase = .idle → issues s (.tcpProcess size) → 8 ≤ size →
    size ≤ s.params.bufCap →
    decode (((tcpEnter size (popped s)).redrawB size).mem.b.drop 7) = .ok i →
    step s = onNext
      (exec i (((tcpEnter size (popped s)).redrawB size).latchFc
        (byteAt ((tcpEnter size (popped s)).redrawB size).mem.b 7)))
      fun t => { t with phase := .idle, env := { t.env with portOut := .respLen t.dec.respLen } }

/-- R140, R90: when B holds a whole well-formed request inside SIZE, the step executes that request on a state that holds
its bytes, with ERR clear and L_FC latched, and returns to Idle. -/
def Obligations.TcpStepRunsTheRequestInTheBuffer : Prop :=
  ∀ (s : State) (size : Nat) (i : Instr), s.phase = .idle → issues s (.tcpProcess size) → size ≤ s.params.bufCap →
    s.mem.b.length = s.params.bufCap → i.wf = true → 7 + (encode i).length ≤ size → holdsRequest s.mem.b i →
    ∃ u t, exec i u = .next t ∧ u.dec.size = size ∧ u.dec.err = false ∧ u.dec.lFc = byteAt s.mem.b 7 ∧
      (∀ k < size, byteAt u.mem.b k = byteAt s.mem.b k) ∧ u.mem.b.length = s.mem.b.length ∧
      u.mem.di = s.mem.di ∧ u.mem.co = s.mem.co ∧ u.mem.ir = s.mem.ir ∧ u.mem.hr = s.mem.hr ∧ u.params = s.params ∧
      step s = .next { t with phase := .idle, env := { t.env with portOut := .respLen t.dec.respLen } } ∧
      u.env = (popped s).env

/-- R141: fewer than 8 bytes answer IllegalFunction; the function byte is a stale byte with bit 7 set. D19 (any value) is
the spec's own decision. -/
def Obligations.RequestWithoutFunctionCodeAnswersIllegalFunction : Prop :=
  ∀ (s : State) (size : Nat), s.phase = .idle → issues s (.tcpProcess size) → size < 8 → 268 ≤ s.params.bufCap →
    s.mem.b.length = s.params.bufCap →
    ∃ t, step s = .next t ∧ t.phase = .idle ∧ t.dec.respLen = 9 ∧ t.env.portOut = .respLen 9 ∧
      byteAt t.mem.b 4 = 0x00 ∧ byteAt t.mem.b 5 = 0x03 ∧ (byteAt t.mem.b 7).getLsbD 7 = true ∧
      (∃ ix, s.freeIx ≤ ix ∧ byteAt t.mem.b 7 = Config.freeByte ix ||| 0x80) ∧
      byteAt t.mem.b 8 = 0x01 ∧ (∀ k < size, k ≠ 4 → k ≠ 5 → k ≠ 7 → byteAt t.mem.b k = byteAt s.mem.b k) ∧
      storeSame s t

/-! ### The RTU engine -/

/-- R237: the complete list of PHASE transitions, with their conditions: of a step in which no host action is issued, of an
accepted RTU_CYCLE, and none in any other host action but reset. D9 and D33 (when the count has stopped growing), D10
(minimum length) and D11 (oversize frames) are the spec's own decisions, log 23; the steps of a wait are log 14, a fill in
the middle of a cycle is log 11. -/
def Obligations.PhaseFollowsTheTransitionTable : Prop :=
  ∀ s t : State, s.phase ≠ .tcpBusy → step s = .next t →
    (hostSilent s → t.phase =
      match s.phase with
      | .idle => .idle
      | .accumulating =>
        if s.gapTimer ≠ 0#32 ∨ s.det.prevCnt < s.env.rxFifo.length then .accumulating
        else if s.env.rxFifo.length = 0 ∨ s.params.rxCap < s.env.rxFifo.length then .idle
        else .frameReady
      | .frameReady =>
        if 4 ≤ s.frameLen ∧ (frameAddr s = s.cfg.slaveId ∨ frameAddr s = s.params.broadcast) ∧
          crc16 (frameAddr s) (framePdu s) = frameCrc s then .dispatched else .idle
      | .dispatched => if t.reply.disp = .suppressed then .suppressed else .reply
      | .reply => if s.tx.txph = .postDelay ∧ s.gapTimer = 0#32 then .idle else .reply
      | .suppressed => .idle
      | .tcpBusy => .idle) ∧
    (issues s .rtuCycle → t.phase = .accumulating) ∧
    (∀ op, issues s op → op ≠ .rtuCycle → op ≠ .reset → t.phase = s.phase)

/-- R220: an accepted RTU_CYCLE starts the frame detector; nothing else changes. D9 (the reference count 0) is the spec's
own decision. -/
def Obligations.AcceptedCycleStartsAccumulating : Prop :=
  ∀ s : State, s.phase = .idle → issues s .rtuCycle → configured s.cfg = true → s.cfg.baud ≠ 0#32 →
    step s = .next { popped s with
      phase := .accumulating
      det := { s.det with prevCnt := 0 }
      reply := { s.reply with disp := .normal } }

/-- R222 (with R221): one poll of the frame detector, in its two outcomes, and a wait in between. -/
def Obligations.PollWaitsWhileTheCountGrows : Prop :=
  ∀ s : State, s.phase = .accumulating → hostSilent s →
    (s.gapTimer ≠ 0#32 → step s = .next s.tick) ∧
    (s.gapTimer = 0#32 → s.det.prevCnt < s.env.rxFifo.length →
      step s = .next { s with
        det := { prevCnt := s.env.rxFifo.length, curCnt := s.env.rxFifo.length }
        gapTimer := t15Of s.cfg.baud }) ∧
    (s.gapTimer = 0#32 → s.env.rxFifo.length ≤ s.det.prevCnt →
      step s = .next (readOut s.env.rxFifo.length
        { s with det := { s.det with curCnt := s.env.rxFifo.length } }))

/-- R223: a cycle whose first poll finds no byte ends at once; the store, the line and TX_EN stay. -/
def Obligations.EmptyLineEndsTheCycle : Prop :=
  ∀ s : State, s.phase = .accumulating → hostSilent s → s.gapTimer = 0#32 → s.env.rxFifo = [] →
    step s = .next { s with phase := .idle, det := { s.det with curCnt := 0 } }

/-- R224: the read-out takes exactly the bytes counted by the last poll: into FRAME if they fit, dropped if not. D9 and D11
are the spec's own decisions. -/
def Obligations.ReadOutConsumesTheCountedBytes : Prop :=
  ∀ s : State, s.phase = .accumulating → hostSilent s → s.gapTimer = 0#32 → s.mem.frame.length = s.params.rxCap →
    s.env.rxFifo ≠ [] → s.env.rxFifo.length ≤ s.det.prevCnt →
    ∃ t, step s = .next t ∧ t.env = { s.env with rxFifo := [] } ∧ t.tx = s.tx ∧
      t.mem.di = s.mem.di ∧ t.mem.co = s.mem.co ∧ t.mem.ir = s.mem.ir ∧ t.mem.hr = s.mem.hr ∧ t.mem.b = s.mem.b ∧
      (s.env.rxFifo.length ≤ s.params.rxCap →
        t.phase = .frameReady ∧ t.frameLen = s.env.rxFifo.length ∧ t.mem.frame.take t.frameLen = s.env.rxFifo ∧
        ∀ k, t.frameLen ≤ k → byteAt t.mem.frame k = byteAt s.mem.frame k) ∧
      (s.params.rxCap < s.env.rxFifo.length →
        t.phase = .idle ∧ t.frameLen = s.frameLen ∧ t.mem.frame = s.mem.frame)

/-- R222, R224, R225: when the line is quiet, a frame seen by the first poll is complete exactly one T1.5 wait later. The
spec marks the boundary property as derived. -/
def Obligations.QuietLineEndsTheFrameAfterOneWait : Prop :=
  ∀ s : State, s.phase = .accumulating → s.env.host = [] → s.gapTimer = 0#32 → s.env.line = [] →
    s.det.prevCnt < s.env.rxFifo.length → s.env.rxFifo.length ≤ s.params.rxCap →
    s.mem.frame.length = s.params.rxCap →
    ∃ t, Sys2Proof.core.run ((t15Of s.cfg.baud).toNat + 2) s = .next t ∧ t.phase = .frameReady ∧
      t.frameLen = s.env.rxFifo.length ∧ t.mem.frame.take t.frameLen = s.env.rxFifo ∧ t.env.rxFifo = []

/-- R226, R227, R229, R232: a frame that fails a check is discarded in silence: the cycle ends, and neither the store nor
the line nor TX_EN changes; any other frame is dispatched. D10 (minimum length) is the spec's own decision, log 23. -/
def Obligations.InvalidFrameIsDiscardedInSilence : Prop :=
  ∀ s : State, s.phase = .frameReady → hostSilent s →
    ∃ t, step s = .next t ∧ t.mem = s.mem ∧ t.env = s.env ∧ t.tx = s.tx ∧ t.reply = s.reply ∧ t.dec = s.dec ∧
      t.cfg = s.cfg ∧ t.frameLen = s.frameLen ∧
      (frameValid s → t.phase = .dispatched) ∧ (¬frameValid s → t.phase = .idle)

/-- R230: the discard does not depend on the order of the checks: one wrong byte in the CRC or a foreign address ends the
cycle whatever else holds. -/
def Obligations.WrongCrcOrForeignAddressNeverDispatches : Prop :=
  ∀ s t : State, s.phase = .frameReady → hostSilent s → step s = .next t →
    (crc16 (frameAddr s) (framePdu s) ≠ frameCrc s ∨
      (frameAddr s ≠ s.cfg.slaveId ∧ frameAddr s ≠ s.params.broadcast) ∨ s.frameLen < 4) →
    t.phase = .idle ∧ transmitted t = transmitted s ∧ t.mem = s.mem ∧ t.tx.txEn = s.tx.txEn

/-- R234: under the default handler a dispatched frame runs exactly the instruction its PDU holds, over a buffer that holds
the PDU at offset 7 and on the same store; the response PDU is that instruction's response without the 7-byte header. B,
SIZE and RESP_LEN stay: the model's choice, log 8. -/
def Obligations.RtuDispatchRunsTheFramesInstruction : Prop :=
  ∀ s : State, s.Inv → s.phase = .dispatched → hostSilent s → s.env.handler = [] →
    ∃ u i t v, decode (u.mem.b.drop 7) = .ok i ∧ (∀ j, j.wf = true → encode j <+: framePdu s → i = j) ∧
      exec i u = .next t ∧ u.dec.size = 7 + (framePdu s).length ∧ u.dec.err = false ∧ u.params = s.params ∧
      u.mem.di = s.mem.di ∧ u.mem.co = s.mem.co ∧ u.mem.ir = s.mem.ir ∧ u.mem.hr = s.mem.hr ∧
      u.mem.b.length = s.params.bufCap ∧ byteAt u.mem.b 6 = frameAddr s ∧
      (u.mem.b.drop 7).take (framePdu s).length = framePdu s ∧
      step s = .next v ∧ v.reply.respPdu = (t.mem.b.take t.dec.respLen).drop 7 ∧
      v.reply.respPduLen = v.reply.respPdu.length ∧
      v.reply.disp = (if frameAddr s = s.params.broadcast then .suppressed else .normal) ∧
      v.phase = (if frameAddr s = s.params.broadcast then .suppressed else .reply) ∧
      v.mem.di = t.mem.di ∧ v.mem.co = t.mem.co ∧ v.mem.ir = t.mem.ir ∧ v.mem.hr = t.mem.hr ∧
      v.mem.b = s.mem.b ∧ v.mem.frame = s.mem.frame ∧ v.dec.size = s.dec.size ∧ v.dec.respLen = s.dec.respLen ∧
      v.tx = s.tx ∧ v.env = s.env

/-- R231, R233: a broadcast frame is processed and then Suppressed, whatever the handler asked for. -/
def Obligations.BroadcastIsAlwaysSuppressed : Prop :=
  ∀ s t : State, s.phase = .dispatched → hostSilent s → frameAddr s = s.params.broadcast → step s = .next t →
    t.reply.disp = .suppressed ∧ t.phase = .suppressed ∧ t.tx = s.tx ∧ transmitted t = transmitted s

/-- R46, R233, R61: a replacement handler's answer becomes the reply, and its store writes take effect in order, those out
of range not at all; a broadcast is carried out and Suppressed. The answer as queued data and the writes out of range are
the model's choice, log 9. -/
def Obligations.HandlerAnswerBecomesTheReply : Prop :=
  ∀ (s : State) (ans : HandlerAnswer) (rest : List HandlerAnswer), s.phase = .dispatched → hostSilent s →
    s.env.handler = ans :: rest → s.mem.wf s.params →
    ∃ t, step s = .next t ∧ t.reply.respPdu = ans.pdu ∧ t.reply.respPduLen = ans.pdu.length ∧
      t.reply.disp =
        (if frameAddr s = s.params.broadcast then .suppressed else if ans.echo then .echo else .normal) ∧
      t.phase = (if frameAddr s = s.params.broadcast then .suppressed else .reply) ∧
      t = { s with phase := t.phase, reply := t.reply, mem := t.mem, env := { s.env with handler := rest } } ∧
      t.mem.frame = s.mem.frame ∧ t.mem.b = s.mem.b ∧
      (∀ sp a, t.mem.readBit sp a = bitAfterWrites s.params sp a (s.mem.readBit sp a) ans.writes) ∧
      (∀ sp a, t.mem.readReg sp a = regAfterWrites s.params sp a (s.mem.readReg sp a) ans.writes)

/-- R238: under the default handler a dispatched frame that is no broadcast always gets a Normal reply, whose PDU is not
empty. The spec marks it as derived. -/
def Obligations.ValidatedFrameAlwaysGetsAReply : Prop :=
  ∀ s : State, s.Inv → s.phase = .dispatched → hostSilent s → s.env.handler = [] →
    frameAddr s ≠ s.params.broadcast →
    ∃ t, step s = .next t ∧ t.phase = .reply ∧ t.reply.disp = .normal ∧ 2 ≤ t.reply.respPduLen ∧
      t.reply.respPduLen ≤ 257 ∧
      (byteAt t.reply.respPdu 0 = byteAt (framePdu s) 0 ∨ byteAt t.reply.respPdu 0 = byteAt (framePdu s) 0 ||| 0x80)

/-! ### Timing and transmission -/

/-- R260, R261: T1.5 and T3.5 in microseconds; neither overflows its 32 bits and neither is 0. D8 (truncation) is the spec's
own decision. -/
def Obligations.TimingFollowsTheBaudRate : Prop :=
  ∀ baud : Tick, baud ≠ 0#32 →
    (t15Of baud).toNat = (if 19200 < baud.toNat then 750 else 16500000 / baud.toNat) ∧
    (t35Of baud).toNat = (t15Of baud).toNat * 7 / 2 ∧ 750 ≤ (t15Of baud).toNat

/-- R263: a wait lasts exactly GAP_TIMER ticks, during which only the timer and the outside world move. -/
def Obligations.WaitLastsExactlyItsTicks : Prop :=
  ∀ s : State, s.env.host = [] →
    (s.phase = .accumulating ∨ (s.phase = .reply ∧ s.tx.txph ∈ [TxPhase.guard, .preDelay, .postDelay])) →
    ∃ e, Sys2Proof.core.run s.gapTimer.toNat s = .next { s with gapTimer := 0#32, env := e } ∧ e.host = [] ∧
      e.sent ++ e.inFlight.map (·.byte) = transmitted s

/-- R265 (with R43, R263, R266, R267): the transmit-enable sequence, step by step, the same for Normal and Echo: the guard
interval, T3.5, the data phase with the bytes it writes and the CRC of a Normal reply, the flush, T3.5, and the end. D14
(blocking write, flush) and D34 (exact waits) are the spec's own decisions, log 23; the transport's times are log 13, one step
a tick or action is log 14, the position in the data phase is log 15. -/
def Obligations.TransmitEnableSequence : Prop :=
  ∀ s : State, s.phase = .reply → hostSilent s →
    (s.tx.txph = .none →
      step s = .next { s with tx := { s.tx with txph := .guard, txEn := true }, gapTimer := s.cfg.tGuard }) ∧
    (s.tx.txph = .guard → s.gapTimer = 0#32 →
      step s = .next { s with tx := { s.tx with txph := .preDelay }, gapTimer := t35Of s.cfg.baud }) ∧
    (s.tx.txph = .preDelay → s.gapTimer = 0#32 →
      step s = .next { s with tx := { s.tx with
        txph := .data, todo := replyBytes s, crcDue := decide (s.reply.disp = .normal) } }) ∧
    (∀ b rest, s.tx.txph = .data → s.tx.todo = b :: rest → s.env.nextTiming.accept = 0 →
      ∃ e, step s = .next { s with tx := { s.tx with todo := rest }, env := e } ∧
        e.sent ++ e.inFlight.map (·.byte) = transmitted s ++ [b] ∧
        e = { s.env with sent := e.sent, inFlight := e.inFlight, txTimings := s.env.txTimings.tail }) ∧
    (∀ b rest, s.tx.txph = .data → s.tx.todo = b :: rest → s.env.nextTiming.accept ≠ 0 →
      step s = .next (State.tick { s with env := s.env.txBlock })) ∧
    (s.tx.txph = .data → s.tx.todo = [] → s.tx.crcDue = true →
      step s = .next { s with
        crc := crcRegsOf s.cfg.slaveId (s.reply.respPdu.take s.reply.respPduLen)
        tx := { s.tx with
          todo := [hi8 (crc16 s.cfg.slaveId (s.reply.respPdu.take s.reply.respPduLen)),
            lo8 (crc16 s.cfg.slaveId (s.reply.respPdu.take s.reply.respPduLen))]
          crcDue := false } }) ∧
    (s.tx.txph = .data → s.tx.todo = [] → s.tx.crcDue = false →
      step s = .next { s with tx := { s.tx with txph := .flush } }) ∧
    (s.tx.txph = .flush → s.env.inFlight = [] →
      step s = .next { s with tx := { s.tx with txph := .postDelay }, gapTimer := t35Of s.cfg.baud }) ∧
    (s.tx.txph = .flush → s.env.inFlight ≠ [] → step s = .next s.tick) ∧
    (s.tx.txph = .postDelay → s.gapTimer = 0#32 →
      step s = .next { s with tx := { s.tx with txph := .none, txEn := false }, phase := .idle }) ∧
    (s.tx.txph ∈ [TxPhase.guard, .preDelay, .postDelay] → s.gapTimer ≠ 0#32 → step s = .next s.tick)

/-- R266: the data phase of a Normal reply writes the slave id, the response PDU and the CRC over both, high byte first. The
transport that takes and sends every byte at once is the case shown; log 13. -/
def Obligations.NormalReplySendsIdPduAndCrc : Prop :=
  ∀ s : State, s.phase = .reply → s.env.host = [] → s.tx.txph = .preDelay → s.gapTimer = 0#32 →
    s.reply.disp = .normal → s.reply.respPduLen = s.reply.respPdu.length → s.env.inFlight = [] →
    s.env.txTimings = [] →
    ∃ t, Sys2Proof.core.run (s.reply.respPduLen + 6) s = .next t ∧ t.tx.txph = .flush ∧ t.tx.txEn = s.tx.txEn ∧
      t.env.sent = s.env.sent ++ (s.cfg.slaveId :: s.reply.respPdu) ++
        [hi8 (crc16 s.cfg.slaveId s.reply.respPdu), lo8 (crc16 s.cfg.slaveId s.reply.respPdu)] ∧
      t.env.inFlight = [] ∧ t.env.rxFifo = s.env.rxFifo ∧ t.mem = s.mem ∧ t.reply = s.reply ∧ t.phase = .reply

/-- R265, R266, R270: a whole Normal reply on a quiet line, from its start to Idle: the guard interval and two T3.5 delays,
one step for each byte and each change of TXPH, then TX_EN 0. The transport that takes and sends every byte at once is the
case shown; logs 13 and 14. -/
def Obligations.WholeReplyEndsAfterGuardAndTwoDelays : Prop :=
  ∀ s : State, s.phase = .reply → s.env.host = [] → s.tx.txph = .none → s.reply.disp = .normal →
    s.reply.respPduLen = s.reply.respPdu.length → s.env.inFlight = [] → s.env.txTimings = [] → s.env.line = [] →
    ∃ t, Sys2Proof.core.run
        (s.cfg.tGuard.toNat + 2 * (t35Of s.cfg.baud).toNat + s.reply.respPduLen + 10) s = .next t ∧
      t.phase = .idle ∧ t.tx.txEn = false ∧ t.tx.txph = .none ∧
      t.env = { s.env with sent := s.env.sent ++ (s.cfg.slaveId :: s.reply.respPdu) ++
        [hi8 (crc16 s.cfg.slaveId s.reply.respPdu), lo8 (crc16 s.cfg.slaveId s.reply.respPdu)] } ∧
      t.mem = s.mem ∧ t.cfg = s.cfg ∧ t.reply = s.reply

/-- R267: the data phase of an Echo reply writes the received frame, byte for byte, and computes no CRC. The transport that
takes and sends every byte at once is the case shown; log 13. -/
def Obligations.EchoReplySendsTheFrame : Prop :=
  ∀ s : State, s.phase = .reply → s.env.host = [] → s.tx.txph = .preDelay → s.gapTimer = 0#32 →
    s.reply.disp = .echo → s.frameLen ≤ s.mem.frame.length → s.env.inFlight = [] → s.env.txTimings = [] →
    ∃ t, Sys2Proof.core.run (s.frameLen + 2) s = .next t ∧ t.tx.txph = .flush ∧ t.tx.txEn = s.tx.txEn ∧
      t.env.sent = s.env.sent ++ s.mem.frame.take s.frameLen ∧ t.env.inFlight = [] ∧ t.crc = s.crc ∧
      t.mem = s.mem ∧ t.phase = .reply

/-- R43: whatever the transport does, a step of the data phase neither drops, repeats nor reorders a byte: the bytes handed
over and those still to write are together the same sequence. -/
def Obligations.DataPhaseKeepsTheByteSequence : Prop :=
  ∀ s t : State, hostSilent s → s.phase = .reply → s.tx.txph = .data → s.tx.todo ≠ [] → step s = .next t →
    transmitted t ++ t.tx.todo = transmitted s ++ s.tx.todo ∧ t.tx.txph = .data ∧ t.tx.crcDue = s.tx.crcDue ∧
      t.mem = s.mem ∧ t.reply = s.reply ∧ t.crc = s.crc

/-- R43, R238: bytes are handed to the transmitter in the data phase of a reply and nowhere else. -/
def Obligations.BytesAreHandedOverOnlyInTheDataPhase : Prop :=
  ∀ s t : State, hostSilent s → ¬(s.phase = .reply ∧ s.tx.txph = .data) → step s = .next t →
    transmitted t = transmitted s

/-- R269, R42: the receive side does not move while TX_EN is 1: no poll, no read-out; the FIFO changes only by what the line
delivers in a tick. -/
def Obligations.NoReceptionWhileTransmitting : Prop :=
  ∀ s t : State, s.Inv → s.tx.txEn = true → hostSilent s → step s = .next t →
    t.det = s.det ∧ t.frameLen = s.frameLen ∧ t.mem = s.mem ∧
      (t.env.rxFifo = s.env.rxFifo ∨ t.env.rxFifo = (tickLine s.env.line s.env.rxFifo).2)

/-- R42, R342: outside Accumulating the FIFO loses no byte: it changes only by what the line delivers in a tick. -/
def Obligations.FifoKeepsItsBytesOutsideAccumulating : Prop :=
  ∀ s t : State, hostSilent s → s.phase ≠ .accumulating → step s = .next t →
    t.env.rxFifo = s.env.rxFifo ∨ t.env.rxFifo = (tickLine s.env.line s.env.rxFifo).2

/-! ### The host's ports -/

/-- R303, R41, R45, R47: while PHASE is not Idle every command and every store or configuration access is refused. D23, D24
and D29 are the spec's own decisions. -/
def Obligations.BusyMachineRefusesTheHost : Prop :=
  ∀ (s : State) (op : HostOp), s.phase ≠ .idle → issues s op → op ≠ .reset → (∀ bytes, op ≠ .fillBuffer bytes) →
    step s = .refused .commandWhileBusy ∨ step s = .refused .storeWhileBusy ∨ step s = .refused .configWhileBusy

/-- R303: while Idle each refusal is answered exactly for its actions and under its condition: a request longer than the
buffer, a cycle without its configuration or with baud 0, a store access out of range, a fill longer than the buffer; nothing
else is refused. D6, D20, D23 and D29 are the spec's own decisions, log 23; the refused fill is log 11, which registers count
as configuration is log 17, and that an unconfigured cycle is named before baud 0 is log 29. -/
def Obligations.IdleMachineRefusesOnlyTheListedActions : Prop :=
  ∀ (s : State) (r : Refusal), s.phase = .idle →
    (step s = .refused r ↔
      (r = .sizeOverBuffer ∧ ∃ size, issues s (.tcpProcess size) ∧ s.params.bufCap < size) ∨
      (r = .cycleUnconfigured ∧ issues s .rtuCycle ∧ configured s.cfg = false) ∨
      (r = .cycleBaudZero ∧ issues s .rtuCycle ∧ configured s.cfg = true ∧ s.cfg.baud = 0#32) ∨
      (r = .storeOutOfRange ∧ ∃ sp a, (issues s (.readBit sp a) ∨ ∃ v, issues s (.writeBit sp a v)) ∧
        sp.cap s.params ≤ a) ∨
      (r = .storeOutOfRange ∧ ∃ sp a, (issues s (.readReg sp a) ∨ ∃ v, issues s (.writeReg sp a v)) ∧
        sp.cap s.params ≤ a) ∨
      (r = .fillOverBuffer ∧ ∃ bytes, issues s (.fillBuffer bytes) ∧ s.params.bufCap < bytes.length))

/-- R31, R41: in every phase a fill of at most BUF_CAP bytes writes them to B from offset 0 and leaves every other byte of B
and every other field; a longer one is refused. That a fill is a step in every phase, and the refusal, are the model's choice,
log 11. -/
def Obligations.FillWritesTheBytesFromOffsetZero : Prop :=
  ∀ (s : State) (bytes : List Byte), issues s (.fillBuffer bytes) → s.mem.b.length = s.params.bufCap →
    (bytes.length ≤ s.params.bufCap →
      ∃ b, step s = .next { popped s with mem := { s.mem with b := b } } ∧ b.length = s.mem.b.length ∧
        b.take bytes.length = bytes ∧ b.drop bytes.length = s.mem.b.drop bytes.length) ∧
    (s.params.bufCap < bytes.length → step s = .refused .fillOverBuffer)

/-- R45: within capacity the host reads and writes every element of all four spaces, and a write changes no other element.
-/
def Obligations.StorePortReadsAndWritesEveryElement : Prop :=
  ∀ s : State, s.phase = .idle → s.mem.wf s.params →
    (∀ sp a, issues s (.readBit sp a) → a < sp.cap s.params →
      step s = .next { popped s with env := { (popped s).env with portOut := .bit (s.mem.readBit sp a) } }) ∧
    (∀ sp a, issues s (.readReg sp a) → a < sp.cap s.params →
      step s = .next { popped s with env := { (popped s).env with portOut := .reg (s.mem.readReg sp a) } }) ∧
    (∀ sp a v, issues s (.writeBit sp a v) → a < sp.cap s.params →
      ∃ t, step s = .next t ∧ t = { popped s with mem := t.mem } ∧ t.mem.b = s.mem.b ∧ t.mem.frame = s.mem.frame ∧
        t.mem.readBit sp a = v ∧ (∀ sp' a', (sp', a') ≠ (sp, a) → t.mem.readBit sp' a' = s.mem.readBit sp' a') ∧
        ∀ sp' a', t.mem.readReg sp' a' = s.mem.readReg sp' a') ∧
    (∀ sp a v, issues s (.writeReg sp a v) → a < sp.cap s.params →
      ∃ t, step s = .next t ∧ t = { popped s with mem := t.mem } ∧ t.mem.b = s.mem.b ∧ t.mem.frame = s.mem.frame ∧
        t.mem.readReg sp a = v ∧ (∀ sp' a', (sp', a') ≠ (sp, a) → t.mem.readReg sp' a' = s.mem.readReg sp' a') ∧
        ∀ sp' a', t.mem.readBit sp' a' = s.mem.readBit sp' a')

/-- R47, R33: while Idle the host writes the three configuration registers and reads all five; T15_US and T35_US follow
CFG_BAUD at once. -/
def Obligations.ConfigPortReadsAndWritesItsRegisters : Prop :=
  ∀ s : State, s.phase = .idle →
    (∀ v, issues s (.writeSlaveId v) →
      step s = .next { popped s with cfg := { s.cfg with slaveId := v, slaveIdWritten := true } }) ∧
    (∀ v, issues s (.writeBaud v) →
      step s = .next { popped s with cfg := { s.cfg with baud := v, baudWritten := true } }) ∧
    (∀ v, issues s (.writeGuard v) →
      step s = .next { popped s with cfg := { s.cfg with tGuard := v, tGuardWritten := true } }) ∧
    (∀ r, issues s (.readConfig r) →
      step s = .next { popped s with env := { (popped s).env with portOut := .config (
        match r with
        | .slaveId => s.cfg.slaveId.setWidth 32
        | .baud => s.cfg.baud
        | .tGuard => s.cfg.tGuard
        | .t15 => t15Of s.cfg.baud
        | .t35 => t35Of s.cfg.baud) } })

/-- R330: a reset at any time abandons what runs and leaves these values; the store is 0 everywhere. -/
def Obligations.ResetAtAnyTimeGivesTheResetValues : Prop :=
  ∀ s : State, issues s .reset →
    ∃ t, step s = .next t ∧ t.phase = .idle ∧ t.tx.txph = .none ∧ t.reply.disp = .normal ∧ t.dec.err = false ∧
      t.det.prevCnt = 0 ∧ t.det.curCnt = 0 ∧ t.gapTimer = 0#32 ∧ t.frameLen = 0 ∧ t.reply.respPduLen = 0 ∧
      t.dec.size = 0 ∧ t.dec.respLen = 0 ∧ t.tx.txEn = false ∧ configured t.cfg = false ∧ t.params = s.params ∧
      (∀ sp a, t.mem.readBit sp a = 0) ∧ (∀ sp a, t.mem.readReg sp a = 0)

/-- R330, R331, R332: the machine after reset, for every value of the parameters. -/
def Obligations.ResetStateHoldsTheResetValues : Prop :=
  ∀ p : Params,
    (State.resetWith p).phase = .idle ∧ (State.resetWith p).tx.txph = .none ∧
      (State.resetWith p).reply.disp = .normal ∧ (State.resetWith p).dec.err = false ∧
      (State.resetWith p).det = { prevCnt := 0, curCnt := 0 } ∧ (State.resetWith p).gapTimer = 0#32 ∧
      (State.resetWith p).frameLen = 0 ∧ (State.resetWith p).reply.respPduLen = 0 ∧
      (State.resetWith p).dec.size = 0 ∧ (State.resetWith p).dec.respLen = 0 ∧ (State.resetWith p).tx.txEn = false ∧
      configured (State.resetWith p).cfg = false ∧
      (∀ sp a, (State.resetWith p).mem.readBit sp a = 0) ∧ (∀ sp a, (State.resetWith p).mem.readReg sp a = 0)

/-! ### The machine as a whole -/

/-- The invariant holds after reset, for all parameters in their ranges. -/
def Obligations.ResetStateHasTheInvariant : Prop := State.reset.Inv ∧ ∀ p : Params, p.wf → (State.resetWith p).Inv

/-- R8, R22, R29, R30, R35, R220, R226, R264, R268: every step keeps the invariant: memory canonical and within capacity,
TX_EN 1 exactly in the transmission sequence and only in Reply, a running cycle configured, FRAME_LEN and RESP_PDU_LEN
within their buffers, no Suppressed reply. -/
def Obligations.EveryStepKeepsTheInvariant : Prop :=
  ∀ s t : State, s.Inv → step s = .next t → t.Inv

/-- 93 Part 2, R147, R239: a machine with the invariant never stops with a fault, and its sequencer is never refused. -/
def Obligations.MachineNeverFaults : Prop :=
  ∀ s : State, s.Inv → (∀ f, step s ≠ .fault f) ∧ (hostSilent s → ∃ t, step s = .next t)

/-- R8: no step changes a parameter. -/
def Obligations.ParametersNeverChange : Prop :=
  ∀ s t : State, step s = .next t → t.params = s.params

/-- R72, R304: in a step in which no host action is issued the store changes only in the dispatch step, and B never. That
the default handler leaves B is log 8. -/
def Obligations.StoreChangesOnlyInDispatch : Prop :=
  ∀ s t : State, hostSilent s → s.phase ≠ .tcpBusy → step s = .next t →
    t.mem.b = s.mem.b ∧
    (s.phase ≠ .dispatched →
      t.mem.di = s.mem.di ∧ t.mem.co = s.mem.co ∧ t.mem.ir = s.mem.ir ∧ t.mem.hr = s.mem.hr)

/-- R33, R346: the configuration registers change only by the host's own writes and by reset. -/
def Obligations.ConfigurationChangesOnlyByTheHost : Prop :=
  ∀ s t : State, step s = .next t → t.cfg ≠ s.cfg →
    issues s .reset ∨ (∃ v, issues s (.writeSlaveId v)) ∨ (∃ v, issues s (.writeBaud v)) ∨ ∃ v, issues s (.writeGuard v)
end

