-- ==== Sys2Proof/Laws/Memory.lean ====
section
/-! SUPPORT. The laws of the memory operations: read after write, the canonical form, byte buffers and free bytes. -/

namespace Sys2Proof.Machine

/-! ### Spaces of the Register Store -/

theorem Cells.read_eq_zero_of_lt {w : Nat} (c : Cells w) (a : Nat) (h : ∀ e ∈ c, a < e.1) : c.read a = 0#w := by
  induction c with
  | nil => rfl
  | cons e rest ih =>
    have he : a < e.1 := h e (by simp)
    have hr := ih fun x hx => h x (by simp [hx])
    simp only [Cells.read]
    rw [if_neg (by omega), hr]

theorem Cells.read_write_same {w n : Nat} (c : Cells w) (a : Nat) (v : BitVec w) (h : Cells.wf n c) :
    (c.write a v).read a = v := by
  induction c with
  | nil => by_cases hv : v = 0#w <;> simp [Cells.write, Cells.read, hv]
  | cons e rest ih =>
    obtain ⟨hp, hz⟩ := h
    have hrest : Cells.wf n rest := ⟨hp.of_cons, fun x hx => hz x (by simp [hx])⟩
    have hlt : ∀ x ∈ rest, e.1 < x.1 := (List.pairwise_cons.mp hp).1
    simp only [Cells.write]
    by_cases h1 : a < e.1
    · have hall : ∀ x ∈ e :: rest, a < x.1 := by
        intro x hx
        rcases List.mem_cons.mp hx with rfl | hx
        · exact h1
        · exact Nat.lt_trans h1 (hlt x hx)
      by_cases hv : v = 0#w
      · simp [h1, hv, Cells.read_eq_zero_of_lt _ _ hall]
      · simp [h1, hv, Cells.read]
    · by_cases h2 : a = e.1
      · subst h2
        by_cases hv : v = 0#w
        · simp [hv, Cells.read_eq_zero_of_lt _ _ hlt]
        · simp [hv, Cells.read]
      · simp [h1, h2, Cells.read, ih hrest]

theorem Cells.read_write_other {w : Nat} (c : Cells w) (a a' : Nat) (v : BitVec w) (h : a' ≠ a) :
    (c.write a v).read a' = c.read a' := by
  induction c with
  | nil => by_cases hv : v = 0#w <;> simp [Cells.write, Cells.read, hv, h]
  | cons e rest ih =>
    simp only [Cells.write]
    by_cases h1 : a < e.1
    · by_cases hv : v = 0#w <;> simp [h1, hv, Cells.read, h]
    · by_cases h2 : a = e.1
      · subst h2
        by_cases hv : v = 0#w <;> simp [hv, Cells.read, h]
      · simp only [h1, h2, if_false, Cells.read, ih]

/-- Every entry of a write is an old entry or the written one. -/
theorem Cells.mem_write {w : Nat} (c : Cells w) (a : Nat) (v : BitVec w) (e : Nat × BitVec w) (h : e ∈ c.write a v) :
    e ∈ c ∨ (e = (a, v) ∧ v ≠ 0#w) := by
  induction c with
  | nil => by_cases hv : v = 0#w <;> simp_all [Cells.write]
  | cons x rest ih =>
    simp only [Cells.write] at h
    by_cases h1 : a < x.1
    · by_cases hv : v = 0#w
      · exact Or.inl (by simpa [h1, hv] using h)
      · rcases (by simpa [h1, hv] using h : e = (a, v) ∨ e = x ∨ e ∈ rest) with h | h
        · exact Or.inr ⟨h, hv⟩
        · exact Or.inl (List.mem_cons.mpr h)
    · by_cases h2 : a = x.1
      · by_cases hv : v = 0#w
        · exact Or.inl (List.mem_cons_of_mem _ (by simpa [h2, hv] using h))
        · rcases (by simpa [h2, hv] using h : e = (x.1, v) ∨ e ∈ rest) with h | h
          · exact Or.inr ⟨h2 ▸ h, hv⟩
          · exact Or.inl (List.mem_cons_of_mem _ h)
      · rcases (by simpa [h1, h2] using h : e = x ∨ e ∈ Cells.write rest a v) with h | h
        · exact Or.inl (h ▸ List.mem_cons_self)
        · exact (ih h).imp_left (List.mem_cons_of_mem _)

theorem Cells.write_wf {w n : Nat} (c : Cells w) (a : Nat) (v : BitVec w) (ha : a < n) (h : Cells.wf n c) :
    Cells.wf n (c.write a v) := by
  refine ⟨?_, fun e he => ?_⟩
  · induction c with
    | nil => by_cases hv : v = 0#w <;> simp [Cells.write, hv]
    | cons x rest ih =>
      obtain ⟨hp, hz⟩ := h
      have hrest : Cells.wf n rest := ⟨hp.of_cons, fun y hy => hz y (by simp [hy])⟩
      have hlt : ∀ y ∈ rest, x.1 < y.1 := (List.pairwise_cons.mp hp).1
      simp only [Cells.write]
      by_cases h1 : a < x.1
      · by_cases hv : v = 0#w
        · simp [h1, hv, hp]
        · simp only [h1, hv, if_true, if_false]
          refine List.pairwise_cons.mpr ⟨fun y hy => ?_, hp⟩
          rcases List.mem_cons.mp hy with rfl | hy
          · exact h1
          · exact Nat.lt_trans h1 (hlt y hy)
      · by_cases h2 : a = x.1
        · by_cases hv : v = 0#w
          · simp [h2, hv, hp.of_cons]
          · simp only [h2, hv, if_true, if_false]
            simp only [Nat.lt_irrefl, if_false]
            exact List.pairwise_cons.mpr ⟨fun y hy => hlt y hy, hp.of_cons⟩
        · simp only [h1, h2, if_false]
          refine List.pairwise_cons.mpr ⟨fun y hy => ?_, ih hrest⟩
          rcases Cells.mem_write _ _ _ _ hy with hy | ⟨rfl, -⟩
          · exact hlt y hy
          · simp only; omega
  · rcases Cells.mem_write _ _ _ _ he with he | ⟨rfl, hv⟩
    · exact h.2 e he
    · exact ⟨ha, hv⟩

theorem Cells.writeFrom_wf {w n : Nat} (vs : List (BitVec w)) (a : Nat) (c : Cells w) (h : Cells.wf n c) :
    Cells.wf n (Cells.writeFrom n a vs c) := by
  induction vs generalizing a c with
  | nil => exact h
  | cons v vs ih =>
    simp only [Cells.writeFrom]
    apply ih
    by_cases ha : a < n
    · simpa [inRange, ha] using Cells.write_wf c a v ha h
    · simpa [inRange, ha] using h

/-- One in-range write of a run: what any address holds after it. -/
theorem Cells.read_writeOne {w n : Nat} (a : Nat) (v : BitVec w) (c : Cells w) (h : Cells.wf n c) (x : Nat) :
    Cells.read (if inRange n a then c.write a v else c) x = if x = a ∧ a < n then v else c.read x := by
  by_cases ha : a < n
  · by_cases hx : x = a
    · subst hx; simp [inRange, ha, Cells.read_write_same c x v h]
    · simp [inRange, ha, hx, Cells.read_write_other c a x v hx]
  · simp [inRange, ha]

/-- What consecutive writes leave: an in-range address of the run holds its value, every other address what it held. -/
theorem Cells.read_writeFrom {w n : Nat} (vs : List (BitVec w)) (a : Nat) (c : Cells w) (h : Cells.wf n c) (x : Nat) :
    (Cells.writeFrom n a vs c).read x =
      if a ≤ x ∧ x < a + vs.length ∧ x < n then vs.getD (x - a) 0 else c.read x := by
  induction vs generalizing a c with
  | nil => simp only [Cells.writeFrom, List.length_nil]; rw [if_neg (by omega)]
  | cons v vs ih =>
    have hw : Cells.wf n (if inRange n a = true then c.write a v else c) := by
      by_cases ha : a < n
      · simpa [inRange, ha] using Cells.write_wf c a v ha h
      · simpa [inRange, ha] using h
    simp only [Cells.writeFrom, List.length_cons]
    rw [ih _ _ hw, Cells.read_writeOne a v c h]
    by_cases hx : x = a
    · subst hx
      by_cases ha : x < n <;> simp [ha]
    · by_cases hc : a + 1 ≤ x ∧ x < a + 1 + vs.length ∧ x < n
      · obtain ⟨k, hk⟩ : ∃ k, x - a = k + 1 := ⟨x - a - 1, by omega⟩
        have hk' : x - (a + 1) = k := by omega
        rw [if_pos hc, if_pos (by omega), hk, hk']
        simp
      · rw [if_neg hc, if_neg (by omega), if_neg (by omega)]

/-! ### Byte buffers -/

@[simp] theorem putBytes_length (i : Nat) (xs buf : List Byte) : (putBytes i xs buf).length = buf.length := by
  induction xs generalizing i buf with
  | nil => rfl
  | cons x xs ih => simp [putBytes, ih]

/-- What a run of bytes leaves at one offset. -/
theorem byteAt_putBytes (i : Nat) (xs buf : List Byte) (k : Nat) (h : i + xs.length ≤ buf.length) :
    byteAt (putBytes i xs buf) k = if i ≤ k ∧ k < i + xs.length then byteAt xs (k - i) else byteAt buf k := by
  induction xs generalizing i buf with
  | nil => simp only [putBytes, List.length_nil]; rw [if_neg (by omega)]
  | cons x xs ih =>
    simp only [List.length_cons] at h
    simp only [putBytes, List.length_cons]
    rw [ih (i + 1) (buf.set i x) (by simp; omega)]
    by_cases hk : k = i
    · subst hk
      rw [if_neg (by omega), if_pos (by omega)]
      have hlt : k < buf.length := by omega
      simp [byteAt, List.getD_eq_getElem?_getD, hlt]
    · by_cases hc : i + 1 ≤ k ∧ k < i + 1 + xs.length
      · rw [if_pos hc, if_pos (by omega)]
        obtain ⟨j, hj⟩ : ∃ j, k - i = j + 1 := ⟨k - i - 1, by omega⟩
        have hj' : k - (i + 1) = j := by omega
        rw [hj, hj']
        simp [byteAt]
      · rw [if_neg hc, if_neg (by omega)]
        have hne : i ≠ k := fun h => hk h.symm
        simp [byteAt, List.getD_eq_getElem?_getD, List.getElem?_set_ne hne]

@[simp] theorem freeBytes_length (ix n : Nat) : (freeBytes ix n).length = n := by simp [freeBytes]

theorem byteAt_take (bs : List Byte) (n k : Nat) (h : k < n) : byteAt (bs.take n) k = byteAt bs k := by
  simp [byteAt, List.getD_eq_getElem?_getD, h]

theorem byteAt_append_left (bs cs : List Byte) (k : Nat) (h : k < bs.length) : byteAt (bs ++ cs) k = byteAt bs k := by
  simp [byteAt, List.getD_eq_getElem?_getD, List.getElem?_append_left h]

/-- Below the offset from which a buffer is redrawn, its bytes stay. -/
theorem byteAt_redraw (bs cs : List Byte) (n k : Nat) (h : k < n) (hn : n ≤ bs.length) :
    byteAt (bs.take n ++ cs) k = byteAt bs k := by
  rw [byteAt_append_left _ _ _ (by simp; omega), byteAt_take _ _ _ h]

/-! ### The store as a whole -/

theorem Memory.writeBit_wf (p : Params) (m : Memory) (sp : BitSpace) (a : Nat) (v : BitVec 1) (ha : a < sp.cap p)
    (h : m.wf p) : (m.writeBit sp a v).wf p := by
  obtain ⟨⟨h1, h2, h3, h4⟩, h5, h6⟩ := h
  cases sp with
  | di => exact ⟨⟨Cells.write_wf _ _ _ ha h1, h2, h3, h4⟩, h5, h6⟩
  | co => exact ⟨⟨h1, Cells.write_wf _ _ _ ha h2, h3, h4⟩, h5, h6⟩

theorem Memory.writeReg_wf (p : Params) (m : Memory) (sp : RegSpace) (a : Nat) (v : Word) (ha : a < sp.cap p)
    (h : m.wf p) : (m.writeReg sp a v).wf p := by
  obtain ⟨⟨h1, h2, h3, h4⟩, h5, h6⟩ := h
  cases sp with
  | ir => exact ⟨⟨h1, h2, Cells.write_wf _ _ _ ha h3, h4⟩, h5, h6⟩
  | hr => exact ⟨⟨h1, h2, h3, Cells.write_wf _ _ _ ha h4⟩, h5, h6⟩

/-- Putting another buffer of the same size into B keeps the form. -/
theorem Memory.wf_of_b (p : Params) (m : Memory) (b : List Byte) (hb : b.length = m.b.length) (h : m.wf p) :
    Memory.wf p { m with b := b } :=
  ⟨h.1, hb.trans h.2.1, h.2.2⟩

/-- Putting another buffer of the same size into FRAME keeps the form. -/
theorem Memory.wf_of_frame (p : Params) (m : Memory) (f : List Byte) (hf : f.length = m.frame.length) (h : m.wf p) :
    Memory.wf p { m with frame := f } :=
  ⟨h.1, h.2.1, hf.trans h.2.2⟩

end Sys2Proof.Machine
end

