-- ==== Sys2Proof/Laws/State.lean ====
section
/-! SUPPORT. The small lemmas of the named updates of State: one per field per update, so that no later proof unfolds a
record update. -/

namespace Sys2Proof.Machine

/-! ### State.putB -/

@[simp] theorem State.putB_params (i : Nat) (xs : List Byte) (s : State) : (s.putB i xs).params = s.params := rfl
@[simp] theorem State.putB_phase (i : Nat) (xs : List Byte) (s : State) : (s.putB i xs).phase = s.phase := rfl
@[simp] theorem State.putB_dec (i : Nat) (xs : List Byte) (s : State) : (s.putB i xs).dec = s.dec := rfl
@[simp] theorem State.putB_crc (i : Nat) (xs : List Byte) (s : State) : (s.putB i xs).crc = s.crc := rfl
@[simp] theorem State.putB_det (i : Nat) (xs : List Byte) (s : State) : (s.putB i xs).det = s.det := rfl
@[simp] theorem State.putB_gapTimer (i : Nat) (xs : List Byte) (s : State) : (s.putB i xs).gapTimer = s.gapTimer := rfl
@[simp] theorem State.putB_frameLen (i : Nat) (xs : List Byte) (s : State) : (s.putB i xs).frameLen = s.frameLen := rfl
@[simp] theorem State.putB_reply (i : Nat) (xs : List Byte) (s : State) : (s.putB i xs).reply = s.reply := rfl
@[simp] theorem State.putB_tx (i : Nat) (xs : List Byte) (s : State) : (s.putB i xs).tx = s.tx := rfl
@[simp] theorem State.putB_cfg (i : Nat) (xs : List Byte) (s : State) : (s.putB i xs).cfg = s.cfg := rfl
@[simp] theorem State.putB_mem_di (i : Nat) (xs : List Byte) (s : State) : (s.putB i xs).mem.di = s.mem.di := rfl
@[simp] theorem State.putB_mem_co (i : Nat) (xs : List Byte) (s : State) : (s.putB i xs).mem.co = s.mem.co := rfl
@[simp] theorem State.putB_mem_ir (i : Nat) (xs : List Byte) (s : State) : (s.putB i xs).mem.ir = s.mem.ir := rfl
@[simp] theorem State.putB_mem_hr (i : Nat) (xs : List Byte) (s : State) : (s.putB i xs).mem.hr = s.mem.hr := rfl
@[simp] theorem State.putB_mem_b (i : Nat) (xs : List Byte) (s : State) : (s.putB i xs).mem.b = putBytes i xs s.mem.b := rfl
@[simp] theorem State.putB_mem_frame (i : Nat) (xs : List Byte) (s : State) : (s.putB i xs).mem.frame = s.mem.frame := rfl
@[simp] theorem State.putB_env (i : Nat) (xs : List Byte) (s : State) : (s.putB i xs).env = s.env := rfl
@[simp] theorem State.putB_freeIx (i : Nat) (xs : List Byte) (s : State) : (s.putB i xs).freeIx = s.freeIx := rfl

/-! ### State.redrawB -/

@[simp] theorem State.redrawB_params (k : Nat) (s : State) : (s.redrawB k).params = s.params := rfl
@[simp] theorem State.redrawB_phase (k : Nat) (s : State) : (s.redrawB k).phase = s.phase := rfl
@[simp] theorem State.redrawB_dec (k : Nat) (s : State) : (s.redrawB k).dec = s.dec := rfl
@[simp] theorem State.redrawB_crc (k : Nat) (s : State) : (s.redrawB k).crc = s.crc := rfl
@[simp] theorem State.redrawB_det (k : Nat) (s : State) : (s.redrawB k).det = s.det := rfl
@[simp] theorem State.redrawB_gapTimer (k : Nat) (s : State) : (s.redrawB k).gapTimer = s.gapTimer := rfl
@[simp] theorem State.redrawB_frameLen (k : Nat) (s : State) : (s.redrawB k).frameLen = s.frameLen := rfl
@[simp] theorem State.redrawB_reply (k : Nat) (s : State) : (s.redrawB k).reply = s.reply := rfl
@[simp] theorem State.redrawB_tx (k : Nat) (s : State) : (s.redrawB k).tx = s.tx := rfl
@[simp] theorem State.redrawB_cfg (k : Nat) (s : State) : (s.redrawB k).cfg = s.cfg := rfl
@[simp] theorem State.redrawB_mem_di (k : Nat) (s : State) : (s.redrawB k).mem.di = s.mem.di := rfl
@[simp] theorem State.redrawB_mem_co (k : Nat) (s : State) : (s.redrawB k).mem.co = s.mem.co := rfl
@[simp] theorem State.redrawB_mem_ir (k : Nat) (s : State) : (s.redrawB k).mem.ir = s.mem.ir := rfl
@[simp] theorem State.redrawB_mem_hr (k : Nat) (s : State) : (s.redrawB k).mem.hr = s.mem.hr := rfl
@[simp] theorem State.redrawB_mem_b (k : Nat) (s : State) : (s.redrawB k).mem.b = s.mem.b.take k ++ freeBytes s.freeIx (s.mem.b.length - k) := rfl
@[simp] theorem State.redrawB_mem_frame (k : Nat) (s : State) : (s.redrawB k).mem.frame = s.mem.frame := rfl
@[simp] theorem State.redrawB_env (k : Nat) (s : State) : (s.redrawB k).env = s.env := rfl
@[simp] theorem State.redrawB_freeIx (k : Nat) (s : State) : (s.redrawB k).freeIx = s.freeIx + (s.mem.b.length - k) := rfl

/-! ### State.latch -/

@[simp] theorem State.latch_params (a q : Word) (s : State) : (s.latch a q).params = s.params := rfl
@[simp] theorem State.latch_phase (a q : Word) (s : State) : (s.latch a q).phase = s.phase := rfl
@[simp] theorem State.latch_dec_err (a q : Word) (s : State) : (s.latch a q).dec.err = s.dec.err := rfl
@[simp] theorem State.latch_dec_size (a q : Word) (s : State) : (s.latch a q).dec.size = s.dec.size := rfl
@[simp] theorem State.latch_dec_respLen (a q : Word) (s : State) : (s.latch a q).dec.respLen = s.dec.respLen := rfl
@[simp] theorem State.latch_dec_lFc (a q : Word) (s : State) : (s.latch a q).dec.lFc = s.dec.lFc := rfl
@[simp] theorem State.latch_dec_lAddr (a q : Word) (s : State) : (s.latch a q).dec.lAddr = a := rfl
@[simp] theorem State.latch_dec_lQty (a q : Word) (s : State) : (s.latch a q).dec.lQty = q := rfl
@[simp] theorem State.latch_dec_lBc (a q : Word) (s : State) : (s.latch a q).dec.lBc = s.dec.lBc := rfl
@[simp] theorem State.latch_crc (a q : Word) (s : State) : (s.latch a q).crc = s.crc := rfl
@[simp] theorem State.latch_det (a q : Word) (s : State) : (s.latch a q).det = s.det := rfl
@[simp] theorem State.latch_gapTimer (a q : Word) (s : State) : (s.latch a q).gapTimer = s.gapTimer := rfl
@[simp] theorem State.latch_frameLen (a q : Word) (s : State) : (s.latch a q).frameLen = s.frameLen := rfl
@[simp] theorem State.latch_reply (a q : Word) (s : State) : (s.latch a q).reply = s.reply := rfl
@[simp] theorem State.latch_tx (a q : Word) (s : State) : (s.latch a q).tx = s.tx := rfl
@[simp] theorem State.latch_cfg (a q : Word) (s : State) : (s.latch a q).cfg = s.cfg := rfl
@[simp] theorem State.latch_mem (a q : Word) (s : State) : (s.latch a q).mem = s.mem := rfl
@[simp] theorem State.latch_env (a q : Word) (s : State) : (s.latch a q).env = s.env := rfl
@[simp] theorem State.latch_freeIx (a q : Word) (s : State) : (s.latch a q).freeIx = s.freeIx := rfl

/-! ### State.latchBc -/

@[simp] theorem State.latchBc_params (bc : Byte) (s : State) : (s.latchBc bc).params = s.params := rfl
@[simp] theorem State.latchBc_phase (bc : Byte) (s : State) : (s.latchBc bc).phase = s.phase := rfl
@[simp] theorem State.latchBc_dec_err (bc : Byte) (s : State) : (s.latchBc bc).dec.err = s.dec.err := rfl
@[simp] theorem State.latchBc_dec_size (bc : Byte) (s : State) : (s.latchBc bc).dec.size = s.dec.size := rfl
@[simp] theorem State.latchBc_dec_respLen (bc : Byte) (s : State) : (s.latchBc bc).dec.respLen = s.dec.respLen := rfl
@[simp] theorem State.latchBc_dec_lFc (bc : Byte) (s : State) : (s.latchBc bc).dec.lFc = s.dec.lFc := rfl
@[simp] theorem State.latchBc_dec_lAddr (bc : Byte) (s : State) : (s.latchBc bc).dec.lAddr = s.dec.lAddr := rfl
@[simp] theorem State.latchBc_dec_lQty (bc : Byte) (s : State) : (s.latchBc bc).dec.lQty = s.dec.lQty := rfl
@[simp] theorem State.latchBc_dec_lBc (bc : Byte) (s : State) : (s.latchBc bc).dec.lBc = bc := rfl
@[simp] theorem State.latchBc_crc (bc : Byte) (s : State) : (s.latchBc bc).crc = s.crc := rfl
@[simp] theorem State.latchBc_det (bc : Byte) (s : State) : (s.latchBc bc).det = s.det := rfl
@[simp] theorem State.latchBc_gapTimer (bc : Byte) (s : State) : (s.latchBc bc).gapTimer = s.gapTimer := rfl
@[simp] theorem State.latchBc_frameLen (bc : Byte) (s : State) : (s.latchBc bc).frameLen = s.frameLen := rfl
@[simp] theorem State.latchBc_reply (bc : Byte) (s : State) : (s.latchBc bc).reply = s.reply := rfl
@[simp] theorem State.latchBc_tx (bc : Byte) (s : State) : (s.latchBc bc).tx = s.tx := rfl
@[simp] theorem State.latchBc_cfg (bc : Byte) (s : State) : (s.latchBc bc).cfg = s.cfg := rfl
@[simp] theorem State.latchBc_mem (bc : Byte) (s : State) : (s.latchBc bc).mem = s.mem := rfl
@[simp] theorem State.latchBc_env (bc : Byte) (s : State) : (s.latchBc bc).env = s.env := rfl
@[simp] theorem State.latchBc_freeIx (bc : Byte) (s : State) : (s.latchBc bc).freeIx = s.freeIx := rfl

/-! ### State.latchFc -/

@[simp] theorem State.latchFc_params (fc : Byte) (s : State) : (s.latchFc fc).params = s.params := rfl
@[simp] theorem State.latchFc_phase (fc : Byte) (s : State) : (s.latchFc fc).phase = s.phase := rfl
@[simp] theorem State.latchFc_dec_err (fc : Byte) (s : State) : (s.latchFc fc).dec.err = s.dec.err := rfl
@[simp] theorem State.latchFc_dec_size (fc : Byte) (s : State) : (s.latchFc fc).dec.size = s.dec.size := rfl
@[simp] theorem State.latchFc_dec_respLen (fc : Byte) (s : State) : (s.latchFc fc).dec.respLen = s.dec.respLen := rfl
@[simp] theorem State.latchFc_dec_lFc (fc : Byte) (s : State) : (s.latchFc fc).dec.lFc = fc := rfl
@[simp] theorem State.latchFc_dec_lAddr (fc : Byte) (s : State) : (s.latchFc fc).dec.lAddr = s.dec.lAddr := rfl
@[simp] theorem State.latchFc_dec_lQty (fc : Byte) (s : State) : (s.latchFc fc).dec.lQty = s.dec.lQty := rfl
@[simp] theorem State.latchFc_dec_lBc (fc : Byte) (s : State) : (s.latchFc fc).dec.lBc = s.dec.lBc := rfl
@[simp] theorem State.latchFc_crc (fc : Byte) (s : State) : (s.latchFc fc).crc = s.crc := rfl
@[simp] theorem State.latchFc_det (fc : Byte) (s : State) : (s.latchFc fc).det = s.det := rfl
@[simp] theorem State.latchFc_gapTimer (fc : Byte) (s : State) : (s.latchFc fc).gapTimer = s.gapTimer := rfl
@[simp] theorem State.latchFc_frameLen (fc : Byte) (s : State) : (s.latchFc fc).frameLen = s.frameLen := rfl
@[simp] theorem State.latchFc_reply (fc : Byte) (s : State) : (s.latchFc fc).reply = s.reply := rfl
@[simp] theorem State.latchFc_tx (fc : Byte) (s : State) : (s.latchFc fc).tx = s.tx := rfl
@[simp] theorem State.latchFc_cfg (fc : Byte) (s : State) : (s.latchFc fc).cfg = s.cfg := rfl
@[simp] theorem State.latchFc_mem (fc : Byte) (s : State) : (s.latchFc fc).mem = s.mem := rfl
@[simp] theorem State.latchFc_env (fc : Byte) (s : State) : (s.latchFc fc).env = s.env := rfl
@[simp] theorem State.latchFc_freeIx (fc : Byte) (s : State) : (s.latchFc fc).freeIx = s.freeIx := rfl

/-! ### State.accumErr -/

@[simp] theorem State.accumErr_params (n : Nat) (start qty : Word) (s : State) : (s.accumErr n start qty).params = s.params := rfl
@[simp] theorem State.accumErr_phase (n : Nat) (start qty : Word) (s : State) : (s.accumErr n start qty).phase = s.phase := rfl
@[simp] theorem State.accumErr_dec_err (n : Nat) (start qty : Word) (s : State) : (s.accumErr n start qty).dec.err = (s.dec.err || anyOutOfRange n start.toNat qty.toNat) := rfl
@[simp] theorem State.accumErr_dec_size (n : Nat) (start qty : Word) (s : State) : (s.accumErr n start qty).dec.size = s.dec.size := rfl
@[simp] theorem State.accumErr_dec_respLen (n : Nat) (start qty : Word) (s : State) : (s.accumErr n start qty).dec.respLen = s.dec.respLen := rfl
@[simp] theorem State.accumErr_dec_lFc (n : Nat) (start qty : Word) (s : State) : (s.accumErr n start qty).dec.lFc = s.dec.lFc := rfl
@[simp] theorem State.accumErr_dec_lAddr (n : Nat) (start qty : Word) (s : State) : (s.accumErr n start qty).dec.lAddr = s.dec.lAddr := rfl
@[simp] theorem State.accumErr_dec_lQty (n : Nat) (start qty : Word) (s : State) : (s.accumErr n start qty).dec.lQty = s.dec.lQty := rfl
@[simp] theorem State.accumErr_dec_lBc (n : Nat) (start qty : Word) (s : State) : (s.accumErr n start qty).dec.lBc = s.dec.lBc := rfl
@[simp] theorem State.accumErr_crc (n : Nat) (start qty : Word) (s : State) : (s.accumErr n start qty).crc = s.crc := rfl
@[simp] theorem State.accumErr_det (n : Nat) (start qty : Word) (s : State) : (s.accumErr n start qty).det = s.det := rfl
@[simp] theorem State.accumErr_gapTimer (n : Nat) (start qty : Word) (s : State) : (s.accumErr n start qty).gapTimer = s.gapTimer := rfl
@[simp] theorem State.accumErr_frameLen (n : Nat) (start qty : Word) (s : State) : (s.accumErr n start qty).frameLen = s.frameLen := rfl
@[simp] theorem State.accumErr_reply (n : Nat) (start qty : Word) (s : State) : (s.accumErr n start qty).reply = s.reply := rfl
@[simp] theorem State.accumErr_tx (n : Nat) (start qty : Word) (s : State) : (s.accumErr n start qty).tx = s.tx := rfl
@[simp] theorem State.accumErr_cfg (n : Nat) (start qty : Word) (s : State) : (s.accumErr n start qty).cfg = s.cfg := rfl
@[simp] theorem State.accumErr_mem (n : Nat) (start qty : Word) (s : State) : (s.accumErr n start qty).mem = s.mem := rfl
@[simp] theorem State.accumErr_env (n : Nat) (start qty : Word) (s : State) : (s.accumErr n start qty).env = s.env := rfl
@[simp] theorem State.accumErr_freeIx (n : Nat) (start qty : Word) (s : State) : (s.accumErr n start qty).freeIx = s.freeIx := rfl

/-! ### State.finish -/

@[simp] theorem State.finish_params (len : Nat) (s : State) : (s.finish len).params = s.params := rfl
@[simp] theorem State.finish_phase (len : Nat) (s : State) : (s.finish len).phase = s.phase := rfl
@[simp] theorem State.finish_dec_err (len : Nat) (s : State) : (s.finish len).dec.err = s.dec.err := rfl
@[simp] theorem State.finish_dec_size (len : Nat) (s : State) : (s.finish len).dec.size = s.dec.size := rfl
@[simp] theorem State.finish_dec_respLen (len : Nat) (s : State) : (s.finish len).dec.respLen = len := rfl
@[simp] theorem State.finish_dec_lFc (len : Nat) (s : State) : (s.finish len).dec.lFc = s.dec.lFc := rfl
@[simp] theorem State.finish_dec_lAddr (len : Nat) (s : State) : (s.finish len).dec.lAddr = s.dec.lAddr := rfl
@[simp] theorem State.finish_dec_lQty (len : Nat) (s : State) : (s.finish len).dec.lQty = s.dec.lQty := rfl
@[simp] theorem State.finish_dec_lBc (len : Nat) (s : State) : (s.finish len).dec.lBc = s.dec.lBc := rfl
@[simp] theorem State.finish_crc (len : Nat) (s : State) : (s.finish len).crc = s.crc := rfl
@[simp] theorem State.finish_det (len : Nat) (s : State) : (s.finish len).det = s.det := rfl
@[simp] theorem State.finish_gapTimer (len : Nat) (s : State) : (s.finish len).gapTimer = s.gapTimer := rfl
@[simp] theorem State.finish_frameLen (len : Nat) (s : State) : (s.finish len).frameLen = s.frameLen := rfl
@[simp] theorem State.finish_reply (len : Nat) (s : State) : (s.finish len).reply = s.reply := rfl
@[simp] theorem State.finish_tx (len : Nat) (s : State) : (s.finish len).tx = s.tx := rfl
@[simp] theorem State.finish_cfg (len : Nat) (s : State) : (s.finish len).cfg = s.cfg := rfl
@[simp] theorem State.finish_mem_di (len : Nat) (s : State) : (s.finish len).mem.di = s.mem.di := rfl
@[simp] theorem State.finish_mem_co (len : Nat) (s : State) : (s.finish len).mem.co = s.mem.co := rfl
@[simp] theorem State.finish_mem_ir (len : Nat) (s : State) : (s.finish len).mem.ir = s.mem.ir := rfl
@[simp] theorem State.finish_mem_hr (len : Nat) (s : State) : (s.finish len).mem.hr = s.mem.hr := rfl
@[simp] theorem State.finish_mem_b (len : Nat) (s : State) : (s.finish len).mem.b = s.mem.b.take len ++ freeBytes s.freeIx (s.mem.b.length - len) := rfl
@[simp] theorem State.finish_mem_frame (len : Nat) (s : State) : (s.finish len).mem.frame = s.mem.frame := rfl
@[simp] theorem State.finish_env (len : Nat) (s : State) : (s.finish len).env = s.env := rfl
@[simp] theorem State.finish_freeIx (len : Nat) (s : State) : (s.finish len).freeIx = s.freeIx + (s.mem.b.length - len) := rfl

/-! ### State.raise -/

@[simp] theorem State.raise_params (code : ExceptionCode) (s : State) : (s.raise code).params = s.params := rfl
@[simp] theorem State.raise_phase (code : ExceptionCode) (s : State) : (s.raise code).phase = s.phase := rfl
@[simp] theorem State.raise_dec_err (code : ExceptionCode) (s : State) : (s.raise code).dec.err = s.dec.err := rfl
@[simp] theorem State.raise_dec_size (code : ExceptionCode) (s : State) : (s.raise code).dec.size = s.dec.size := rfl
@[simp] theorem State.raise_dec_respLen (code : ExceptionCode) (s : State) : (s.raise code).dec.respLen = 9 := rfl
@[simp] theorem State.raise_dec_lFc (code : ExceptionCode) (s : State) : (s.raise code).dec.lFc = s.dec.lFc := rfl
@[simp] theorem State.raise_dec_lAddr (code : ExceptionCode) (s : State) : (s.raise code).dec.lAddr = s.dec.lAddr := rfl
@[simp] theorem State.raise_dec_lQty (code : ExceptionCode) (s : State) : (s.raise code).dec.lQty = s.dec.lQty := rfl
@[simp] theorem State.raise_dec_lBc (code : ExceptionCode) (s : State) : (s.raise code).dec.lBc = s.dec.lBc := rfl
@[simp] theorem State.raise_crc (code : ExceptionCode) (s : State) : (s.raise code).crc = s.crc := rfl
@[simp] theorem State.raise_det (code : ExceptionCode) (s : State) : (s.raise code).det = s.det := rfl
@[simp] theorem State.raise_gapTimer (code : ExceptionCode) (s : State) : (s.raise code).gapTimer = s.gapTimer := rfl
@[simp] theorem State.raise_frameLen (code : ExceptionCode) (s : State) : (s.raise code).frameLen = s.frameLen := rfl
@[simp] theorem State.raise_reply (code : ExceptionCode) (s : State) : (s.raise code).reply = s.reply := rfl
@[simp] theorem State.raise_tx (code : ExceptionCode) (s : State) : (s.raise code).tx = s.tx := rfl
@[simp] theorem State.raise_cfg (code : ExceptionCode) (s : State) : (s.raise code).cfg = s.cfg := rfl
@[simp] theorem State.raise_mem_di (code : ExceptionCode) (s : State) : (s.raise code).mem.di = s.mem.di := rfl
@[simp] theorem State.raise_mem_co (code : ExceptionCode) (s : State) : (s.raise code).mem.co = s.mem.co := rfl
@[simp] theorem State.raise_mem_ir (code : ExceptionCode) (s : State) : (s.raise code).mem.ir = s.mem.ir := rfl
@[simp] theorem State.raise_mem_hr (code : ExceptionCode) (s : State) : (s.raise code).mem.hr = s.mem.hr := rfl
@[simp] theorem State.raise_mem_frame (code : ExceptionCode) (s : State) : (s.raise code).mem.frame = s.mem.frame := rfl
@[simp] theorem State.raise_env (code : ExceptionCode) (s : State) : (s.raise code).env = s.env := rfl

/-! ### State.respond -/

@[simp] theorem State.respond_params (len : Nat) (s : State) : (s.respond len).params = s.params := rfl
@[simp] theorem State.respond_phase (len : Nat) (s : State) : (s.respond len).phase = s.phase := rfl
@[simp] theorem State.respond_dec_err (len : Nat) (s : State) : (s.respond len).dec.err = s.dec.err := rfl
@[simp] theorem State.respond_dec_size (len : Nat) (s : State) : (s.respond len).dec.size = s.dec.size := rfl
@[simp] theorem State.respond_dec_respLen (len : Nat) (s : State) : (s.respond len).dec.respLen = 6 + len := rfl
@[simp] theorem State.respond_dec_lFc (len : Nat) (s : State) : (s.respond len).dec.lFc = s.dec.lFc := rfl
@[simp] theorem State.respond_dec_lAddr (len : Nat) (s : State) : (s.respond len).dec.lAddr = s.dec.lAddr := rfl
@[simp] theorem State.respond_dec_lQty (len : Nat) (s : State) : (s.respond len).dec.lQty = s.dec.lQty := rfl
@[simp] theorem State.respond_dec_lBc (len : Nat) (s : State) : (s.respond len).dec.lBc = s.dec.lBc := rfl
@[simp] theorem State.respond_crc (len : Nat) (s : State) : (s.respond len).crc = s.crc := rfl
@[simp] theorem State.respond_det (len : Nat) (s : State) : (s.respond len).det = s.det := rfl
@[simp] theorem State.respond_gapTimer (len : Nat) (s : State) : (s.respond len).gapTimer = s.gapTimer := rfl
@[simp] theorem State.respond_frameLen (len : Nat) (s : State) : (s.respond len).frameLen = s.frameLen := rfl
@[simp] theorem State.respond_reply (len : Nat) (s : State) : (s.respond len).reply = s.reply := rfl
@[simp] theorem State.respond_tx (len : Nat) (s : State) : (s.respond len).tx = s.tx := rfl
@[simp] theorem State.respond_cfg (len : Nat) (s : State) : (s.respond len).cfg = s.cfg := rfl
@[simp] theorem State.respond_mem_di (len : Nat) (s : State) : (s.respond len).mem.di = s.mem.di := rfl
@[simp] theorem State.respond_mem_co (len : Nat) (s : State) : (s.respond len).mem.co = s.mem.co := rfl
@[simp] theorem State.respond_mem_ir (len : Nat) (s : State) : (s.respond len).mem.ir = s.mem.ir := rfl
@[simp] theorem State.respond_mem_hr (len : Nat) (s : State) : (s.respond len).mem.hr = s.mem.hr := rfl
@[simp] theorem State.respond_mem_frame (len : Nat) (s : State) : (s.respond len).mem.frame = s.mem.frame := rfl
@[simp] theorem State.respond_env (len : Nat) (s : State) : (s.respond len).env = s.env := rfl

/-! ### State.acknowledge -/

@[simp] theorem State.acknowledge_params (s : State) : (s.acknowledge).params = s.params := rfl
@[simp] theorem State.acknowledge_phase (s : State) : (s.acknowledge).phase = s.phase := rfl
@[simp] theorem State.acknowledge_dec_err (s : State) : (s.acknowledge).dec.err = s.dec.err := rfl
@[simp] theorem State.acknowledge_dec_size (s : State) : (s.acknowledge).dec.size = s.dec.size := rfl
@[simp] theorem State.acknowledge_dec_respLen (s : State) : (s.acknowledge).dec.respLen = 12 := rfl
@[simp] theorem State.acknowledge_dec_lFc (s : State) : (s.acknowledge).dec.lFc = s.dec.lFc := rfl
@[simp] theorem State.acknowledge_dec_lAddr (s : State) : (s.acknowledge).dec.lAddr = s.dec.lAddr := rfl
@[simp] theorem State.acknowledge_dec_lQty (s : State) : (s.acknowledge).dec.lQty = s.dec.lQty := rfl
@[simp] theorem State.acknowledge_dec_lBc (s : State) : (s.acknowledge).dec.lBc = s.dec.lBc := rfl
@[simp] theorem State.acknowledge_crc (s : State) : (s.acknowledge).crc = s.crc := rfl
@[simp] theorem State.acknowledge_det (s : State) : (s.acknowledge).det = s.det := rfl
@[simp] theorem State.acknowledge_gapTimer (s : State) : (s.acknowledge).gapTimer = s.gapTimer := rfl
@[simp] theorem State.acknowledge_frameLen (s : State) : (s.acknowledge).frameLen = s.frameLen := rfl
@[simp] theorem State.acknowledge_reply (s : State) : (s.acknowledge).reply = s.reply := rfl
@[simp] theorem State.acknowledge_tx (s : State) : (s.acknowledge).tx = s.tx := rfl
@[simp] theorem State.acknowledge_cfg (s : State) : (s.acknowledge).cfg = s.cfg := rfl
@[simp] theorem State.acknowledge_mem_di (s : State) : (s.acknowledge).mem.di = s.mem.di := rfl
@[simp] theorem State.acknowledge_mem_co (s : State) : (s.acknowledge).mem.co = s.mem.co := rfl
@[simp] theorem State.acknowledge_mem_ir (s : State) : (s.acknowledge).mem.ir = s.mem.ir := rfl
@[simp] theorem State.acknowledge_mem_hr (s : State) : (s.acknowledge).mem.hr = s.mem.hr := rfl
@[simp] theorem State.acknowledge_mem_frame (s : State) : (s.acknowledge).mem.frame = s.mem.frame := rfl
@[simp] theorem State.acknowledge_env (s : State) : (s.acknowledge).env = s.env := rfl

/-! ### State.tick -/

@[simp] theorem State.tick_params (s : State) : (s.tick).params = s.params := rfl
@[simp] theorem State.tick_phase (s : State) : (s.tick).phase = s.phase := rfl
@[simp] theorem State.tick_dec (s : State) : (s.tick).dec = s.dec := rfl
@[simp] theorem State.tick_crc (s : State) : (s.tick).crc = s.crc := rfl
@[simp] theorem State.tick_det (s : State) : (s.tick).det = s.det := rfl
@[simp] theorem State.tick_gapTimer (s : State) : (s.tick).gapTimer = (if s.gapTimer = 0#32 then 0#32 else s.gapTimer - 1) := rfl
@[simp] theorem State.tick_frameLen (s : State) : (s.tick).frameLen = s.frameLen := rfl
@[simp] theorem State.tick_reply (s : State) : (s.tick).reply = s.reply := rfl
@[simp] theorem State.tick_tx (s : State) : (s.tick).tx = s.tx := rfl
@[simp] theorem State.tick_cfg (s : State) : (s.tick).cfg = s.cfg := rfl
@[simp] theorem State.tick_mem (s : State) : (s.tick).mem = s.mem := rfl
@[simp] theorem State.tick_env (s : State) : (s.tick).env = s.env.tick := rfl
@[simp] theorem State.tick_freeIx (s : State) : (s.tick).freeIx = s.freeIx := rfl

/-! ### State.answer -/

@[simp] theorem State.answer_params (v : PortOut) (s : State) : (s.answer v).params = s.params := rfl
@[simp] theorem State.answer_phase (v : PortOut) (s : State) : (s.answer v).phase = s.phase := rfl
@[simp] theorem State.answer_dec (v : PortOut) (s : State) : (s.answer v).dec = s.dec := rfl
@[simp] theorem State.answer_crc (v : PortOut) (s : State) : (s.answer v).crc = s.crc := rfl
@[simp] theorem State.answer_det (v : PortOut) (s : State) : (s.answer v).det = s.det := rfl
@[simp] theorem State.answer_gapTimer (v : PortOut) (s : State) : (s.answer v).gapTimer = s.gapTimer := rfl
@[simp] theorem State.answer_frameLen (v : PortOut) (s : State) : (s.answer v).frameLen = s.frameLen := rfl
@[simp] theorem State.answer_reply (v : PortOut) (s : State) : (s.answer v).reply = s.reply := rfl
@[simp] theorem State.answer_tx (v : PortOut) (s : State) : (s.answer v).tx = s.tx := rfl
@[simp] theorem State.answer_cfg (v : PortOut) (s : State) : (s.answer v).cfg = s.cfg := rfl
@[simp] theorem State.answer_mem (v : PortOut) (s : State) : (s.answer v).mem = s.mem := rfl
@[simp] theorem State.answer_env (v : PortOut) (s : State) : (s.answer v).env = { s.env with portOut := v } := rfl
@[simp] theorem State.answer_freeIx (v : PortOut) (s : State) : (s.answer v).freeIx = s.freeIx := rfl

/-! ### State.setReply -/

@[simp] theorem State.setReply_params (resp : List Byte) (req : Disposition) (s : State) : (s.setReply resp req).params = s.params := rfl
@[simp] theorem State.setReply_phase (resp : List Byte) (req : Disposition) (s : State) : (s.setReply resp req).phase = s.phase := rfl
@[simp] theorem State.setReply_dec (resp : List Byte) (req : Disposition) (s : State) : (s.setReply resp req).dec = s.dec := rfl
@[simp] theorem State.setReply_crc (resp : List Byte) (req : Disposition) (s : State) : (s.setReply resp req).crc = s.crc := rfl
@[simp] theorem State.setReply_det (resp : List Byte) (req : Disposition) (s : State) : (s.setReply resp req).det = s.det := rfl
@[simp] theorem State.setReply_gapTimer (resp : List Byte) (req : Disposition) (s : State) : (s.setReply resp req).gapTimer = s.gapTimer := rfl
@[simp] theorem State.setReply_frameLen (resp : List Byte) (req : Disposition) (s : State) : (s.setReply resp req).frameLen = s.frameLen := rfl
@[simp] theorem State.setReply_reply (resp : List Byte) (req : Disposition) (s : State) : (s.setReply resp req).reply = { disp := req, respPdu := resp, respPduLen := resp.length } := rfl
@[simp] theorem State.setReply_tx (resp : List Byte) (req : Disposition) (s : State) : (s.setReply resp req).tx = s.tx := rfl
@[simp] theorem State.setReply_cfg (resp : List Byte) (req : Disposition) (s : State) : (s.setReply resp req).cfg = s.cfg := rfl
@[simp] theorem State.setReply_mem (resp : List Byte) (req : Disposition) (s : State) : (s.setReply resp req).mem = s.mem := rfl
@[simp] theorem State.setReply_env (resp : List Byte) (req : Disposition) (s : State) : (s.setReply resp req).env = s.env := rfl
@[simp] theorem State.setReply_freeIx (resp : List Byte) (req : Disposition) (s : State) : (s.setReply resp req).freeIx = s.freeIx := rfl

/-! ### endCycle -/

@[simp] theorem endCycle_params (s : State) : (endCycle s).params = s.params := rfl
@[simp] theorem endCycle_phase (s : State) : (endCycle s).phase = .idle := rfl
@[simp] theorem endCycle_dec (s : State) : (endCycle s).dec = s.dec := rfl
@[simp] theorem endCycle_crc (s : State) : (endCycle s).crc = s.crc := rfl
@[simp] theorem endCycle_det (s : State) : (endCycle s).det = s.det := rfl
@[simp] theorem endCycle_gapTimer (s : State) : (endCycle s).gapTimer = s.gapTimer := rfl
@[simp] theorem endCycle_frameLen (s : State) : (endCycle s).frameLen = s.frameLen := rfl
@[simp] theorem endCycle_reply (s : State) : (endCycle s).reply = s.reply := rfl
@[simp] theorem endCycle_tx (s : State) : (endCycle s).tx = s.tx := rfl
@[simp] theorem endCycle_cfg (s : State) : (endCycle s).cfg = s.cfg := rfl
@[simp] theorem endCycle_mem (s : State) : (endCycle s).mem = s.mem := rfl
@[simp] theorem endCycle_env (s : State) : (endCycle s).env = s.env := rfl
@[simp] theorem endCycle_freeIx (s : State) : (endCycle s).freeIx = s.freeIx := rfl

/-! ### enterWait -/

@[simp] theorem enterWait_params (p : TxPhase) (t : Tick) (s : State) : (enterWait p t s).params = s.params := rfl
@[simp] theorem enterWait_phase (p : TxPhase) (t : Tick) (s : State) : (enterWait p t s).phase = s.phase := rfl
@[simp] theorem enterWait_dec (p : TxPhase) (t : Tick) (s : State) : (enterWait p t s).dec = s.dec := rfl
@[simp] theorem enterWait_crc (p : TxPhase) (t : Tick) (s : State) : (enterWait p t s).crc = s.crc := rfl
@[simp] theorem enterWait_det (p : TxPhase) (t : Tick) (s : State) : (enterWait p t s).det = s.det := rfl
@[simp] theorem enterWait_gapTimer (p : TxPhase) (t : Tick) (s : State) : (enterWait p t s).gapTimer = t := rfl
@[simp] theorem enterWait_frameLen (p : TxPhase) (t : Tick) (s : State) : (enterWait p t s).frameLen = s.frameLen := rfl
@[simp] theorem enterWait_reply (p : TxPhase) (t : Tick) (s : State) : (enterWait p t s).reply = s.reply := rfl
@[simp] theorem enterWait_tx (p : TxPhase) (t : Tick) (s : State) : (enterWait p t s).tx = { s.tx with txph := p } := rfl
@[simp] theorem enterWait_cfg (p : TxPhase) (t : Tick) (s : State) : (enterWait p t s).cfg = s.cfg := rfl
@[simp] theorem enterWait_mem (p : TxPhase) (t : Tick) (s : State) : (enterWait p t s).mem = s.mem := rfl
@[simp] theorem enterWait_env (p : TxPhase) (t : Tick) (s : State) : (enterWait p t s).env = s.env := rfl
@[simp] theorem enterWait_freeIx (p : TxPhase) (t : Tick) (s : State) : (enterWait p t s).freeIx = s.freeIx := rfl

end Sys2Proof.Machine
end

