-- ==== Sys2Proof/Laws/DecodeEnd.lean ====
section
/-! SUPPORT. The two ends of a decode, said once: the bytes a response holds and the size of the buffer (R91, R99, R145). -/

namespace Sys2Proof.Machine

@[simp] theorem State.putB_length (i : Nat) (xs : List Byte) (s : State) :
    (s.putB i xs).mem.b.length = s.mem.b.length := by simp

theorem State.redrawB_length (k : Nat) (s : State) : (s.redrawB k).mem.b.length = s.mem.b.length := by
  simp; omega

theorem State.finish_length (len : Nat) (s : State) : (s.finish len).mem.b.length = s.mem.b.length := by
  simp; omega

/-- Below RESP_LEN the response is what was written. -/
theorem State.byteAt_finish (len k : Nat) (s : State) (hk : k < len) (hl : len ≤ s.mem.b.length) :
    byteAt (s.finish len).mem.b k = byteAt s.mem.b k := by
  simpa using byteAt_redraw _ _ _ _ hk hl

/-- From RESP_LEN on the buffer holds free bytes, drawn for this response (R146). -/
theorem State.byteAt_finish_free (len k : Nat) (s : State) (hl : len ≤ s.mem.b.length) (h : len ≤ k)
    (hk : k < s.mem.b.length) :
    byteAt (s.finish len).mem.b k = Config.freeByte (s.freeIx + (k - len)) ∧
      s.freeIx + (k - len) < (s.finish len).freeIx := by
  have hlt : k - len < s.mem.b.length - len := by omega
  constructor
  · simp [byteAt, freeBytes, List.getD_eq_getElem?_getD, List.getElem?_append_right, hl, h, hlt]
  · simp; omega

theorem State.raise_length (code : ExceptionCode) (s : State) : (s.raise code).mem.b.length = s.mem.b.length := by
  simp only [State.raise, State.finish_length, putBytes_length]

theorem State.respond_length (len : Nat) (s : State) : (s.respond len).mem.b.length = s.mem.b.length := by
  simp only [State.respond, State.finish_length, State.putB_length]

theorem State.acknowledge_length (s : State) : s.acknowledge.mem.b.length = s.mem.b.length := by
  simp only [State.acknowledge, State.finish_length, State.putB_length]

/-- Every byte of an exception response (R99, R145). -/
theorem State.byteAt_raise (code : ExceptionCode) (s : State) (h : 9 ≤ s.mem.b.length) (k : Nat) (hk : k < 9) :
    byteAt (s.raise code).mem.b k =
      if k = 4 then 0x00 else if k = 5 then 0x03 else if k = 7 then byteAt s.mem.b 7 ||| 0x80
      else if k = 8 then code.toByte else byteAt s.mem.b k := by
  rw [State.raise, State.byteAt_finish _ _ _ hk (by simpa using h)]
  simp only
  rw [byteAt_putBytes _ _ _ _ (by simp; omega), byteAt_putBytes _ _ _ _ (by simp; omega)]
  interval_cases k <;> simp [byteAt]

/-- Every byte of a success response below its length: the length field, and elsewhere what was written (R91). -/
theorem State.byteAt_respond (len : Nat) (s : State) (h : 6 + len ≤ s.mem.b.length) (k : Nat) (hk : k < 6 + len) :
    byteAt (s.respond len).mem.b k =
      if k = 4 then hi8 (BitVec.ofNat 16 len) else if k = 5 then lo8 (BitVec.ofNat 16 len) else byteAt s.mem.b k := by
  rw [State.respond, State.byteAt_finish _ _ _ hk (by simpa using h)]
  simp only [State.putB_mem_b]
  rw [byteAt_putBytes _ _ _ _ (by simp; omega)]
  by_cases h4 : k = 4
  · subst h4; simp [byteAt]
  · by_cases h5 : k = 5
    · subst h5; simp [byteAt]
    · rw [if_neg (by simp; omega), if_neg h4, if_neg h5]

/-- Every byte of an acknowledgment (R97, R98). -/
theorem State.byteAt_acknowledge (s : State) (h : 12 ≤ s.mem.b.length) (k : Nat) (hk : k < 12) :
    byteAt s.acknowledge.mem.b k = if k = 4 then 0x00 else if k = 5 then 0x06 else byteAt s.mem.b k := by
  rw [State.acknowledge, State.byteAt_finish _ _ _ hk (by simpa using h)]
  simp only [State.putB_mem_b]
  rw [byteAt_putBytes _ _ _ _ (by simp; omega)]
  interval_cases k <;> simp [byteAt]

/-! ### The checks -/

theorem anyOutOfRange_eq_true (n start qty : Nat) : anyOutOfRange n start qty = true ↔ ∃ i < qty, n ≤ start + i := by
  simp [anyOutOfRange, inRange]

theorem anyOutOfRange_eq_false (n start qty : Nat) :
    anyOutOfRange n start qty = false ↔ ∀ i < qty, start + i < n := by
  simp [anyOutOfRange, inRange]

/-- CHECK_PAYLOAD passes exactly so (R201). -/
theorem payloadOk_iff (expected : Nat) (bc : Byte) (s : State) :
    payloadOk expected bc s = true ↔ 13 + bc.toNat ≤ s.dec.size ∧ bc.toNat = expected := by
  unfold payloadOk
  rw [Bool.and_eq_true, decide_eq_true_iff, decide_eq_true_iff]

/-! ### Packed bits and words -/

theorem byteOfBits_getLsbD (f : Nat → Bool) (j : Nat) (hj : j < 8) : (byteOfBits f).getLsbD j = f j := by
  have hf : byteOfBits f =
      byteOfBits fun k => [f 0, f 1, f 2, f 3, f 4, f 5, f 6, f 7].getD k false := by
    simp [byteOfBits, List.range_succ]
  have key : ∀ b0 b1 b2 b3 b4 b5 b6 b7 : Bool, ∀ i : Fin 8,
      (byteOfBits fun k => [b0, b1, b2, b3, b4, b5, b6, b7].getD k false).getLsbD i =
        [b0, b1, b2, b3, b4, b5, b6, b7].getD i false := by decide +kernel
  rw [hf, key _ _ _ _ _ _ _ _ ⟨j, hj⟩]
  interval_cases j <;> rfl

@[simp] theorem packBits_length (qty : Nat) (f : Nat → Bool) : (packBits qty f).length = ceil8 qty := by
  simp [packBits]

/-- Bit `i mod 8` of byte `i div 8` is element `i`, and the bits beyond the last element are 0 (R100). -/
theorem byteAt_packBits (qty : Nat) (f : Nat → Bool) (i : Nat) (hi : i / 8 < ceil8 qty) :
    (byteAt (packBits qty f) (i / 8)).getLsbD (i % 8) = (decide (i < qty) && f i) := by
  have hmod : i % 8 < 8 := Nat.mod_lt _ (by omega)
  have hdiv : 8 * (i / 8) + i % 8 = i := Nat.div_add_mod i 8
  simp [packBits, byteAt, hi, byteOfBits_getLsbD _ _ hmod, hdiv]

@[simp] theorem packWords_length (qty : Nat) (f : Nat → Word) : (packWords qty f).length = 2 * qty := by
  simp [packWords]; omega

theorem packWords_succ (qty : Nat) (f : Nat → Word) : packWords (qty + 1) f = packWords qty f ++ [hi8 (f qty), lo8 (f qty)] := by
  simp [packWords, List.range_succ]

/-- Bytes 2i and 2i+1 are the two bytes of word `i`, high byte first (R96). -/
theorem byteAt_packWords (qty : Nat) (f : Nat → Word) (i : Nat) (hi : i < qty) :
    byteAt (packWords qty f) (2 * i) = hi8 (f i) ∧ byteAt (packWords qty f) (2 * i + 1) = lo8 (f i) := by
  induction qty with
  | zero => omega
  | succ n ih =>
    rw [packWords_succ]
    by_cases h : i < n
    · rw [byteAt_append_left _ _ _ (by simp; omega), byteAt_append_left _ _ _ (by simp; omega)]
      exact ih h
    · have : i = n := by omega
      subst this
      simp [byteAt, List.getD_eq_getElem?_getD]

end Sys2Proof.Machine
end

