-- ==== Sys2Proof/Laws/Exec.lean ====
section
/-! SUPPORT. How every instruction ends, said once: with the exception encoder, the acknowledgment or a read response, over
a state that differs from the first only inside the decoder, the writable spaces and B (R97 to R99, R306). -/

namespace Sys2Proof.Machine

/-- `u` is `s` but for the decoder's registers, CO, HR and B. -/
def State.onlyDecode (s u : State) : Prop :=
  u = { s with dec := u.dec, mem := { s.mem with co := u.mem.co, hr := u.mem.hr, b := u.mem.b } }

/-- The three ends of an instruction: the state `u` just before the end keeps the size of B and its bytes below 8. -/
inductive State.EndsIn (s : State) : State → Prop where
  | raise (u : State) (code : ExceptionCode) (hc : code.toByte ∈ [(1 : Byte), 2, 3]) (ho : s.onlyDecode u)
      (hl : u.mem.b.length = s.mem.b.length) (hb : 268 ≤ s.mem.b.length → ∀ k < 8, byteAt u.mem.b k = byteAt s.mem.b k) :
      State.EndsIn s (u.raise code)
  | acknowledge (u : State) (ho : s.onlyDecode u) (hb : u.mem.b = s.mem.b) : State.EndsIn s u.acknowledge
  | respond (u : State) (bc : Nat) (h : bc ≤ 255) (ho : s.onlyDecode u) (hl : u.mem.b.length = s.mem.b.length)
      (hb : 268 ≤ s.mem.b.length → ∀ k < 8, byteAt u.mem.b k = byteAt s.mem.b k) :
      State.EndsIn s (u.respond (3 + bc))

/-- A response written from offset 8 on leaves the first 8 bytes. -/
theorem byteAt_putBytes_eight (xs buf : List Byte) (hx : xs.length ≤ 257) (hb : 268 ≤ buf.length) (k : Nat) (hk : k < 8) :
    byteAt (putBytes 8 xs buf) k = byteAt buf k := by
  rw [byteAt_putBytes _ _ _ _ (by omega), if_neg (by omega)]

/-- An exception raised on the request's own buffer. -/
theorem State.endsIn_raise (s u : State) (code : ExceptionCode) (hc : code.toByte ∈ [(1 : Byte), 2, 3]) (ho : s.onlyDecode u)
    (hb : u.mem.b = s.mem.b) : s.EndsIn (u.raise code) :=
  .raise u code hc ho (by rw [hb]) fun _ _ _ => by rw [hb]

theorem readBits_endsIn (sp : BitSpace) (start qty : Word) (s : State) : s.EndsIn (readBits sp start qty s) := by
  unfold readBits State.withOperands
  split
  · exact s.endsIn_raise s _ (by decide) rfl rfl
  unfold readBitsBody
  simp only
  split
  · exact s.endsIn_raise _ _ (by decide) rfl rfl
  split
  · exact .raise _ _ (by decide) rfl (by simp) fun hb => byteAt_putBytes_eight _ _ (by simp; omega) hb
  · exact .respond _ _ (by omega) rfl (by simp) fun hb => byteAt_putBytes_eight _ _ (by simp; omega) hb

theorem readRegs_endsIn (sp : RegSpace) (start qty : Word) (s : State) : s.EndsIn (readRegs sp start qty s) := by
  unfold readRegs State.withOperands
  split
  · exact s.endsIn_raise s _ (by decide) rfl rfl
  unfold readRegsBody
  simp only
  split
  · exact s.endsIn_raise _ _ (by decide) rfl rfl
  split
  · exact .raise _ _ (by decide) rfl (by simp) fun hb => byteAt_putBytes_eight _ _ (by simp; omega) hb
  · exact .respond _ _ (by omega) rfl (by simp) fun hb => byteAt_putBytes_eight _ _ (by simp; omega) hb

theorem closeMultiple_endsIn (s u : State) (ho : s.onlyDecode u) (hb : u.mem.b = s.mem.b) :
    s.EndsIn (closeMultiple u) := by
  unfold closeMultiple
  split
  · exact s.endsIn_raise _ _ (by decide) ho hb
  · exact .acknowledge _ ho hb

/-- How an instruction ends. -/
theorem exec_endsIn (i : Instr) (s t : State) (h : exec i s = .next t) : s.EndsIn t := by
  cases i with
  | rdCoils a q => cases h; exact readBits_endsIn .co a q s
  | rdDi a q => cases h; exact readBits_endsIn .di a q s
  | rdHr a q => cases h; exact readRegs_endsIn .hr a q s
  | rdIr a q => cases h; exact readRegs_endsIn .ir a q s
  | wrCoil a v =>
    cases h
    unfold State.withOperands wrCoilBody
    split
    · exact s.endsIn_raise s _ (by decide) rfl rfl
    split
    · exact .acknowledge _ rfl rfl
    · exact s.endsIn_raise _ _ (by decide) rfl rfl
  | wrReg a v =>
    cases h
    unfold State.withOperands wrRegBody
    split
    · exact s.endsIn_raise s _ (by decide) rfl rfl
    split
    · exact .acknowledge _ rfl rfl
    · exact s.endsIn_raise _ _ (by decide) rfl rfl
  | wrCoils a q bc d =>
    cases h
    unfold State.withOperands wrCoilsBody
    split
    · exact s.endsIn_raise s _ (by decide) rfl rfl
    split
    · exact closeMultiple_endsIn s _ rfl rfl
    · exact s.endsIn_raise _ _ (by decide) rfl rfl
  | wrRegs a q bc d =>
    cases h
    unfold State.withOperands wrRegsBody
    split
    · exact s.endsIn_raise s _ (by decide) rfl rfl
    split
    · exact closeMultiple_endsIn s _ rfl rfl
    · exact s.endsIn_raise _ _ (by decide) rfl rfl
  | illegalFc fc => cases h; exact s.endsIn_raise s _ (by decide) rfl rfl

end Sys2Proof.Machine
end

