-- ==== Sys2Proof/Laws/PerInstr.lean ====
section
/-! SUPPORT. Statements made per instruction. EncodedLength: a well-formed request is not empty and fits behind the 7-byte
header in the smallest buffer (30_encoding R94, R108). -/

namespace Sys2Proof.Laws

/-- The encoding of a well-formed request has 1 to 261 bytes. -/
def EncodedLength.Statement (i : Instr) : Prop := i.wf = true → 1 ≤ (encode i).length ∧ (encode i).length ≤ longestPdu

theorem EncodedLength.rdCoils (start qty : Word) : EncodedLength.Statement (.rdCoils start qty) := fun _ => by
  simp [encode, encodeTwoWords, longestPdu]

theorem EncodedLength.rdDi (start qty : Word) : EncodedLength.Statement (.rdDi start qty) := fun _ => by
  simp [encode, encodeTwoWords, longestPdu]

theorem EncodedLength.rdHr (start qty : Word) : EncodedLength.Statement (.rdHr start qty) := fun _ => by
  simp [encode, encodeTwoWords, longestPdu]

theorem EncodedLength.rdIr (start qty : Word) : EncodedLength.Statement (.rdIr start qty) := fun _ => by
  simp [encode, encodeTwoWords, longestPdu]

theorem EncodedLength.wrCoil (addr val : Word) : EncodedLength.Statement (.wrCoil addr val) := fun _ => by
  simp [encode, encodeTwoWords, longestPdu]

theorem EncodedLength.wrReg (addr val : Word) : EncodedLength.Statement (.wrReg addr val) := fun _ => by
  simp [encode, encodeTwoWords, longestPdu]

theorem EncodedLength.wrCoils (start qty : Word) (bc : Byte) (data : List Byte) :
    EncodedLength.Statement (.wrCoils start qty bc data) := fun h => by
  have hd : data.length = bc.toNat := by simpa [Instr.wf] using h
  have hb : bc.toNat < 256 := bc.isLt
  simp [encode, encodeTwoWords, longestPdu]; omega

theorem EncodedLength.wrRegs (start qty : Word) (bc : Byte) (data : List Byte) :
    EncodedLength.Statement (.wrRegs start qty bc data) := fun h => by
  have hd : data.length = bc.toNat := by simpa [Instr.wf] using h
  have hb : bc.toNat < 256 := bc.isLt
  simp [encode, encodeTwoWords, longestPdu]; omega

theorem EncodedLength.illegalFc (fc : Byte) : EncodedLength.Statement (.illegalFc fc) := fun _ => by
  simp [encode, longestPdu]

end Sys2Proof.Laws
end

