-- ==== Sys2Proof/Laws/Step.lean ====
section
/-! SUPPORT. What one step can do, said once: the host action that is due, or the sequencer (log 14). -/

namespace Sys2Proof.Machine

theorem onNext_eq_next {o : Result} {f : State → State} {t : State} (h : onNext o f = .next t) :
    ∃ u, o = .next u ∧ t = f u := by
  cases o with
  | next u => exact ⟨u, rfl, by simpa [onNext] using h.symm⟩
  | fault r => simp [onNext] at h
  | refused r => simp [onNext] at h

/-- With nothing pending from the host, the step is the sequencer's. -/
theorem step_of_host_nil (s : State) (h : s.env.host = []) : step s = sequence s := by simp [step, h]

/-- While the next host action still waits, the step is the sequencer's too. -/
theorem step_of_not_due (s : State) (h : ∀ q rest, s.env.host = q :: rest → q.due s = false) : step s = sequence s := by
  cases he : s.env.host with
  | nil => exact step_of_host_nil s he
  | cons q rest => simp [step, he, h q rest he]

/-- A due host action is the step. -/
theorem step_of_due (s : State) (h : HostReq) (rest : List HostReq) (he : s.env.host = h :: rest) (hd : h.due s = true) :
    step s = hostOp h.op { s with env := { s.env with host := rest } } := by simp [step, he, hd]

/-- The two kinds of step. -/
theorem step_cases (s : State) :
    (∃ h rest, s.env.host = h :: rest ∧ h.due s = true ∧ step s = hostOp h.op { s with env := { s.env with host := rest } }) ∨
      step s = sequence s := by
  cases he : s.env.host with
  | nil => exact Or.inr (step_of_host_nil s he)
  | cons h rest =>
    by_cases hd : h.due s = true
    · exact Or.inl ⟨h, rest, rfl, hd, step_of_due s h rest he hd⟩
    · exact Or.inr (by simp [step, he, hd])

/-- Bytes leaving the line go from the front of what is in flight to the end of what was sent. -/
theorem leaveReady_split (fs : List InFlight) :
    (leaveReady fs).1 ++ (leaveReady fs).2.map (·.byte) = fs.map (·.byte) := by
  induction fs with
  | nil => rfl
  | cons f rest ih =>
    by_cases h : f.left = 0 <;> simp [leaveReady, h, ih]

/-- Settling neither drops nor reorders a byte. -/
theorem Env.settle_bytes (e : Env) :
    e.settle.sent ++ e.settle.inFlight.map (·.byte) = e.sent ++ e.inFlight.map (·.byte) := by
  simp [Env.settle, leaveReady_split]

theorem tickFlight_bytes (fs : List InFlight) : (tickFlight fs).map (·.byte) = fs.map (·.byte) := by
  cases fs <;> simp [tickFlight]

/-- A tick neither drops nor reorders a byte. -/
theorem Env.tick_bytes (e : Env) :
    e.tick.sent ++ e.tick.inFlight.map (·.byte) = e.sent ++ e.inFlight.map (·.byte) := by
  rw [Env.tick, Env.settle_bytes]
  simp [tickFlight_bytes]

/-- A byte accepted by the transport goes behind all that went before. -/
theorem Env.txAccept_bytes (b : Byte) (e : Env) :
    (e.txAccept b).sent ++ (e.txAccept b).inFlight.map (·.byte) = e.sent ++ e.inFlight.map (·.byte) ++ [b] := by
  rw [Env.txAccept, Env.settle_bytes]
  simp

/-- The only fields of the outside world a tick can change. -/
theorem Env.tick_frame (e : Env) :
    e.tick.host = tickHost e.host ∧ e.tick.rxFifo = (tickLine e.line e.rxFifo).2 ∧ e.tick.handler = e.handler ∧
      e.tick.portOut = e.portOut ∧ e.tick.txTimings = e.txTimings := ⟨rfl, rfl, rfl, rfl, rfl⟩

/-- One run of the machine more: a step, then the rest. -/
theorem run_succ (n : Nat) (s t : State) (h : step s = .next t) :
    Sys2Proof.core.run (n + 1) s = Sys2Proof.core.run n t := by
  simp [Host.Core.run, Sys2Proof.core, h]

/-- A run in two parts. -/
theorem run_add (m n : Nat) (s t : State) (h : Sys2Proof.core.run m s = .next t) :
    Sys2Proof.core.run (m + n) s = Sys2Proof.core.run n t := by
  induction m generalizing s with
  | zero => simp [Host.Core.run] at h; cases h; simp
  | succ m ih =>
    rw [show m + 1 + n = m + n + 1 by omega]
    simp only [Host.Core.run] at h ⊢
    split at h
    · rename_i s' hs
      rw [hs] at *
      exact ih s' h
    · cases h
    · cases h

/-- What fills a buffer from its start can be read back. -/
theorem putBytes_take (xs buf : List Byte) (h : xs.length ≤ buf.length) : (putBytes 0 xs buf).take xs.length = xs := by
  apply List.ext_getElem?
  intro k
  by_cases hk : k < xs.length
  · have hb := byteAt_putBytes 0 xs buf k (by omega)
    have hk2 : k < (putBytes 0 xs buf).length := by simp; omega
    rw [if_pos (by omega)] at hb
    simp only [byteAt, List.getD_eq_getElem?_getD, Nat.sub_zero, List.getElem?_eq_getElem hk,
      List.getElem?_eq_getElem hk2, Option.getD_some] at hb
    rw [List.getElem?_take, if_pos hk, List.getElem?_eq_getElem hk, List.getElem?_eq_getElem hk2, hb]
  · rw [List.getElem?_eq_none (by simp; omega), List.getElem?_eq_none (by omega)]

/-- What fills a buffer from its start leaves the bytes after it. -/
theorem putBytes_drop (xs buf : List Byte) (h : xs.length ≤ buf.length) :
    (putBytes 0 xs buf).drop xs.length = buf.drop xs.length := by
  apply List.ext_getElem?
  intro k
  rw [List.getElem?_drop, List.getElem?_drop]
  by_cases hk : xs.length + k < buf.length
  · have hb := byteAt_putBytes 0 xs buf (xs.length + k) (by omega)
    rw [if_neg (by omega)] at hb
    have hk2 : xs.length + k < (putBytes 0 xs buf).length := by simpa using hk
    simpa only [byteAt, List.getD_eq_getElem?_getD, List.getElem?_eq_getElem hk, List.getElem?_eq_getElem hk2,
      Option.getD_some, Option.some.injEq] using hb
  · rw [List.getElem?_eq_none (by simp; omega), List.getElem?_eq_none (by omega)]

/-! ### DECODE() -/

/-- A request of fewer than 8 bytes (R141). -/
theorem decodeRequest_short (s : State) (h : s.dec.size < 8) :
    decodeRequest s = .next ((s.redrawB s.dec.size).raise .illegalFunction) := by
  simp only [decodeRequest, if_pos h]

/-- A request of at least 8 bytes runs the instruction the buffer holds (R142). -/
theorem decodeRequest_run (s : State) (i : Instr) (h : 8 ≤ s.dec.size)
    (hd : decode ((s.redrawB s.dec.size).mem.b.drop 7) = .ok i) :
    decodeRequest s = exec i ((s.redrawB s.dec.size).latchFc (byteAt (s.redrawB s.dec.size).mem.b 7)) := by
  simp only [decodeRequest, if_neg (Nat.not_lt.mpr h), hd]

/-! ### Memory keeps its form -/

theorem StoreWrite.apply_wf (p : Params) (m : Memory) (w : StoreWrite) (h : m.wf p) : (w.apply p m).wf p := by
  cases w with
  | bit sp a v =>
    by_cases ha : a < sp.cap p
    · simpa [StoreWrite.apply, inRange, ha] using Memory.writeBit_wf p m sp a v ha h
    · simpa [StoreWrite.apply, inRange, ha] using h
  | reg sp a v =>
    by_cases ha : a < sp.cap p
    · simpa [StoreWrite.apply, inRange, ha] using Memory.writeReg_wf p m sp a v ha h
    · simpa [StoreWrite.apply, inRange, ha] using h

/-- What one store write of a handler does to every bit: an in-range write sets its own, no other changes (R61). -/
theorem StoreWrite.apply_readBit (p : Params) (m : Memory) (w : StoreWrite) (h : m.wf p) (sp : BitSpace) (a : Nat) :
    (w.apply p m).readBit sp a =
      match w with
      | .bit sp' a' v => if sp' = sp ∧ a' = a ∧ a < sp.cap p then v else m.readBit sp a
      | .reg _ _ _ => m.readBit sp a := by
  obtain ⟨⟨w1, w2, _, _⟩, _, _⟩ := h
  cases w with
  | reg sp' a' v => cases sp' <;> cases sp <;> simp only [StoreWrite.apply] <;> split <;> rfl
  | bit sp' a' v =>
    simp only [StoreWrite.apply, inRange, decide_eq_true_eq]
    by_cases hc : a' < sp'.cap p
    · by_cases h1 : sp' = sp ∧ a' = a
      · obtain ⟨rfl, rfl⟩ := h1
        rw [if_pos hc, if_pos ⟨rfl, rfl, hc⟩]
        cases sp'
        · exact Cells.read_write_same _ _ _ w1
        · exact Cells.read_write_same _ _ _ w2
      · rw [if_pos hc, if_neg (by tauto)]
        cases sp <;> cases sp' <;> first
          | rfl
          | exact Cells.read_write_other _ _ _ _ fun e => h1 ⟨rfl, e.symm⟩
    · rw [if_neg hc, if_neg]
      rintro ⟨rfl, rfl, h⟩
      exact hc h

/-- The same for every register. -/
theorem StoreWrite.apply_readReg (p : Params) (m : Memory) (w : StoreWrite) (h : m.wf p) (sp : RegSpace) (a : Nat) :
    (w.apply p m).readReg sp a =
      match w with
      | .bit _ _ _ => m.readReg sp a
      | .reg sp' a' v => if sp' = sp ∧ a' = a ∧ a < sp.cap p then v else m.readReg sp a := by
  obtain ⟨⟨_, _, w3, w4⟩, _, _⟩ := h
  cases w with
  | bit sp' a' v => cases sp' <;> cases sp <;> simp only [StoreWrite.apply] <;> split <;> rfl
  | reg sp' a' v =>
    simp only [StoreWrite.apply, inRange, decide_eq_true_eq]
    by_cases hc : a' < sp'.cap p
    · by_cases h1 : sp' = sp ∧ a' = a
      · obtain ⟨rfl, rfl⟩ := h1
        rw [if_pos hc, if_pos ⟨rfl, rfl, hc⟩]
        cases sp'
        · exact Cells.read_write_same _ _ _ w3
        · exact Cells.read_write_same _ _ _ w4
      · rw [if_pos hc, if_neg (by tauto)]
        cases sp <;> cases sp' <;> first
          | rfl
          | exact Cells.read_write_other _ _ _ _ fun e => h1 ⟨rfl, e.symm⟩
    · rw [if_neg hc, if_neg]
      rintro ⟨rfl, rfl, h⟩
      exact hc h

theorem StoreWrite.foldl_wf (p : Params) (ws : List StoreWrite) (m : Memory) (h : m.wf p) :
    (ws.foldl (StoreWrite.apply p) m).wf p := by
  induction ws generalizing m with
  | nil => exact h
  | cons w ws ih => exact ih _ (StoreWrite.apply_wf p m w h)

/-- Memory after reset has the form. -/
theorem State.resetWith_mem_wf (p : Params) : (State.resetWith p).mem.wf p := by
  simp [State.resetWith, Memory.wf, Cells.wf]

end Sys2Proof.Machine
end

