-- ==== Sys2Proof/Laws/Words.lean ====
section
/-! SUPPORT. A word and its two bytes (00_scope R10): taking apart and putting together are inverse. -/

namespace Sys2Proof

theorem be16_toNat (x y : Byte) : (be16 x y).toNat = x.toNat * 256 + y.toNat := by
  have hx := x.isLt
  have hy := y.isLt
  simp only [be16, BitVec.toNat_ofNat]
  omega

theorem hi8_toNat (w : Word) : (hi8 w).toNat = w.toNat / 256 := by
  have hw := w.isLt
  simp only [hi8, BitVec.extractLsb'_toNat, Nat.shiftRight_eq_div_pow]
  omega

theorem lo8_toNat (w : Word) : (lo8 w).toNat = w.toNat % 256 := by
  simp [lo8]

@[simp] theorem be16_hi8_lo8 (w : Word) : be16 (hi8 w) (lo8 w) = w := by
  apply BitVec.eq_of_toNat_eq
  rw [be16_toNat, hi8_toNat, lo8_toNat]
  omega

@[simp] theorem hi8_be16 (x y : Byte) : hi8 (be16 x y) = x := by
  apply BitVec.eq_of_toNat_eq
  have hy := y.isLt
  rw [hi8_toNat, be16_toNat]
  omega

@[simp] theorem lo8_be16 (x y : Byte) : lo8 (be16 x y) = y := by
  apply BitVec.eq_of_toNat_eq
  have hy := y.isLt
  rw [lo8_toNat, be16_toNat]
  omega

end Sys2Proof
end

