-- ==== Sys2Proof/Tests/Slice0.lean ====
section
/-! SUPPORT. Tests of the model, and for every statement with hypotheses a state that meets them. Expected bytes come from
spec/: the worked examples of the rules and the vectors S, T, X and the CRC table of 95_test_vectors; each test names its
source. -/

open Sys2Proof Sys2Proof.Machine Sys2Proof.Claims

namespace Sys2Proof.Tests

set_option maxRecDepth 20000
-- One test after another: side by side they wait for the kernel in a thread each, and together pass the memory limit.
set_option Elab.async false

/-! ### Small machines -/

/-- A machine with capacities `n` for bits and `m` for registers, and the smallest buffers. -/
def small (n m : Nat) : State :=
  State.resetWith { nDi := n, nCo := n, nIr := m, nHr := m, bufCap := 268, rxCap := 16, broadcast := 0 }

/-- `s` with `req` in B and the host about to issue TCP_PROCESS over it. -/
def withRequest (req : List Byte) (s : State) : State :=
  { s with
    mem := { s.mem with b := req ++ s.mem.b.drop req.length }
    env := { s.env with host := [{ after := 0, overlap := false, op := .tcpProcess req.length }] } }

/-- The state after that one step. -/
def after (s : State) : Option State :=
  match step s with
  | .next t => some t
  | .fault _ => none
  | .refused _ => none

/-- The response to one request. -/
def respond (req : List Byte) (s : State) : Option (List Byte) :=
  (after (withRequest req s)).map fun t => t.mem.b.take t.dec.respLen

/-- What one request leaves of a coil, and of a holding register. -/
def coilAfter (a : Nat) (req : List Byte) (s : State) : Option (BitVec 1) :=
  (after (withRequest req s)).map fun t => t.mem.readBit .co a
def holdingAfter (a : Nat) (req : List Byte) (s : State) : Option Word :=
  (after (withRequest req s)).map fun t => t.mem.readReg .hr a

/-! ### Well-formedness -/

theorem test_wf_wrCoils_refuses_short_data : (Instr.wrCoils 0 8 2 [0xFF]).wf = false := by decide
theorem test_wf_wrRegs_refuses_long_data : (Instr.wrRegs 0 1 2 [0, 1, 2]).wf = false := by decide
theorem test_wf_illegalFc_refuses_listed_code : (Instr.illegalFc 3).wf = false := by decide
theorem test_wf_illegalFc_takes_unlisted_code : (Instr.illegalFc 7).wf = true := by decide

/-! ### Decoding: PDUs of the vectors, byte for byte (R92 to R94, R104) -/

theorem test_decode_rdCoils : decode [0x01, 0x00, 0x00, 0x07, 0xF9] = .ok (.rdCoils 0x0000 0x07F9) := rfl
theorem test_decode_rdDi : decode [0x02, 0x00, 0x00, 0x00, 0x08] = .ok (.rdDi 0x0000 0x0008) := rfl
theorem test_decode_rdHr : decode [0x03, 0xFF, 0xFF, 0x00, 0x02] = .ok (.rdHr 0xFFFF 0x0002) := rfl
theorem test_decode_rdIr : decode [0x04, 0x00, 0x03, 0x00, 0x02] = .ok (.rdIr 0x0003 0x0002) := rfl
theorem test_decode_wrCoil : decode [0x05, 0x00, 0x03, 0xFF, 0x00] = .ok (.wrCoil 0x0003 0xFF00) := rfl
theorem test_decode_wrReg : decode [0x06, 0x00, 0x04, 0x12, 0x34] = .ok (.wrReg 0x0004 0x1234) := rfl
theorem test_decode_wrCoils :
    decode [0x0F, 0x00, 0x02, 0x00, 0x0A, 0x02, 0xCD, 0x01] = .ok (.wrCoils 0x0002 0x000A 0x02 [0xCD, 0x01]) := rfl
theorem test_decode_wrRegs :
    decode [0x10, 0x00, 0x01, 0x00, 0x02, 0x04, 0x00, 0x0A, 0x01, 0x02] =
      .ok (.wrRegs 0x0001 0x0002 0x04 [0x00, 0x0A, 0x01, 0x02]) := rfl
theorem test_decode_illegalFc : decode [0x81] = .ok (.illegalFc 0x81) := rfl
theorem test_decode_refuses_cut_operands : decode [0x03, 0x00, 0x00, 0x00] = .error .operandsCut := rfl
theorem test_decode_refuses_cut_data : decode [0x0F, 0, 0, 0, 8, 2, 0xFF] = .error .dataCut := rfl
theorem test_decode_table_word : decodeTableWord 40 0x3412000006 = some (.wrReg 0x0000 0x1234) := by decide +kernel

/-! ### One step for each instruction -/

/-- T10. -/
theorem test_rdCoils_packs_from_bit_zero :
    respond [0, 1, 0, 0, 0, 6, 0x11, 1, 0, 0, 0, 3]
      { small 16 4 with mem := { (small 16 4).mem with co := [(0, 1), (2, 1)] } } =
      some [0, 1, 0, 0, 0, 4, 0x11, 1, 1, 5] := by decide +kernel

/-- S2: a position past the capacity. -/
theorem test_rdCoils_out_of_range :
    respond [0, 1, 0, 0, 0, 6, 1, 1, 0, 0, 0, 0x0A] (small 8 4) = some [0, 1, 0, 0, 0, 3, 1, 0x81, 2] := by decide +kernel

/-- T11. -/
theorem test_rdDi_packs_eight :
    respond [0, 2, 0, 0, 0, 6, 1, 2, 0, 0, 0, 8]
      { small 8 4 with mem := { (small 8 4).mem with di := [(0, 1), (1, 1), (7, 1)] } } =
      some [0, 2, 0, 0, 0, 4, 1, 2, 1, 0x83] := by decide +kernel

/-- T3 for function code 2: 8 <= SIZE < 12. -/
theorem test_rdDi_short_request :
    respond [0, 1, 0, 0, 0, 5, 1, 2, 0, 0, 0] (small 8 4) = some [0, 1, 0, 0, 0, 3, 1, 0x82, 3] := by decide +kernel

/-- S1, second half. -/
theorem test_rdHr_high_byte_first :
    respond [0, 5, 0, 0, 0, 6, 1, 3, 0, 0, 0, 1]
      { small 8 4 with mem := { (small 8 4).mem with hr := [(0, 0x1234)] } } =
      some [0, 5, 0, 0, 0, 5, 1, 3, 2, 0x12, 0x34] := by decide +kernel

/-- T20: no wrap at 65536. -/
theorem test_rdHr_does_not_wrap :
    respond [0, 1, 0, 0, 0, 6, 1, 3, 0xFF, 0xFF, 0, 2] (small 8 65536) = some [0, 1, 0, 0, 0, 3, 1, 0x83, 2] := by
  decide +kernel

/-- T17. -/
theorem test_rdIr_two_words :
    respond [0, 7, 0, 0, 0, 6, 1, 4, 0, 2, 0, 2]
      { small 8 4 with mem := { (small 8 4).mem with ir := [(2, 0xBEEF), (3, 1)] } } =
      some [0, 7, 0, 0, 0, 7, 1, 4, 4, 0xBE, 0xEF, 0, 1] := by decide +kernel

/-- T18. -/
theorem test_rdIr_out_of_range :
    respond [0, 7, 0, 0, 0, 6, 1, 4, 0, 3, 0, 2] (small 8 4) = some [0, 7, 0, 0, 0, 3, 1, 0x84, 2] := by decide +kernel

/-- T24: any non-zero word sets the coil. -/
theorem test_wrCoil_any_nonzero_sets :
    coilAfter 1 [0, 1, 0, 0, 0, 6, 1, 5, 0, 1, 0, 1] (small 2 4) = some 1 := by decide +kernel

/-- T22: the address one past the last. -/
theorem test_wrCoil_out_of_range :
    respond [0, 1, 0, 0, 0, 6, 1, 5, 0, 2, 0xFF, 0] (small 2 4) = some [0, 1, 0, 0, 0, 3, 1, 0x85, 2] := by decide +kernel

/-- S1, first half. -/
theorem test_wrReg_echoes_its_request :
    respond [0, 0x0B, 0, 0, 0, 6, 1, 6, 0, 0, 0x12, 0x34] (small 8 4) =
      some [0, 0x0B, 0, 0, 0, 6, 1, 6, 0, 0, 0x12, 0x34] := by decide +kernel

/-- S1, first half: the word stored. -/
theorem test_wrReg_stores_big_endian :
    holdingAfter 0 [0, 0x0B, 0, 0, 0, 6, 1, 6, 0, 0, 0x12, 0x34] (small 8 4) = some 0x1234 := by decide +kernel

/-- T25. -/
theorem test_wrCoils_bit_order :
    (after (withRequest [0, 0x0C, 0, 0, 0, 9, 1, 0x0F, 0, 2, 0, 0x0A, 2, 0xCD, 1] (small 16 4))).map
      (fun t => (List.range 10).map fun i => t.mem.readBit .co (2 + i)) =
      some [1, 0, 1, 1, 0, 0, 1, 1, 1, 0] := by decide +kernel

/-- T29: the coils in range are written before the exception. -/
theorem test_wrCoils_partial_write :
    coilAfter 7 [0, 1, 0, 0, 0, 8, 1, 0x0F, 0, 6, 0, 4, 1, 0x0F] (small 8 4) = some 1 := by decide +kernel

/-- T33: a partial write answers IllegalDataAddress. -/
theorem test_wrRegs_partial_write_answers_exception :
    respond [0, 0x0D, 0, 0, 0, 0x0B, 1, 0x10, 0, 1, 0, 2, 4, 0, 0x0A, 1, 2] (small 8 2) =
      some [0, 0x0D, 0, 0, 0, 3, 1, 0x90, 2] := by decide +kernel

/-- T34: an odd byte count. -/
theorem test_wrRegs_wrong_byte_count :
    respond [0, 1, 0, 0, 0, 0x0A, 1, 0x10, 0, 0, 0, 1, 3, 0, 1, 2] (small 8 4) =
      some [0, 1, 0, 0, 0, 3, 1, 0x90, 3] := by decide +kernel

/-- S3: function code 200. -/
theorem test_illegalFc_200 :
    respond [0, 1, 0, 0, 0, 2, 1, 0xC8] (small 8 4) = some [0, 1, 0, 0, 0, 3, 1, 0xC8, 1] := by decide +kernel

/-- T7: function code 7 with a full-length request. -/
theorem test_illegalFc_7 :
    respond [0, 1, 0, 0, 0, 6, 1, 7, 0, 0, 0, 1] (small 8 4) = some [0, 1, 0, 0, 0, 3, 1, 0x87, 1] := by decide +kernel

/-- The instruction of table word 05, placed by withFetchWord, is the first step after reset: WR_COIL 0, 0 (R93, R97). -/
theorem test_first_step_runs_the_fetched_word :
    (after (State.reset.withFetchWord 8 0x05)).map (fun t => t.mem.b.take t.dec.respLen) =
      some [0, 0, 0, 0, 0, 6, 0, 5, 0, 0, 0, 0] := by decide +kernel

/-! ### The CRC engine, timing and validation -/

/-- The published frame of R124. -/
theorem test_crc_published_frame : crc16 0x01 [0x03, 0x00, 0x00, 0x00, 0x0A] = 0xC5CD := by decide +kernel

/-- The check value of R126. -/
theorem test_crc_check_value : crc16 0x31 [0x32, 0x33, 0x34, 0x35, 0x36, 0x37, 0x38, 0x39] = 0x374B := by decide +kernel

/-- The first fold of R122. -/
theorem test_crc_first_fold : CrcRegs.fold CrcRegs.init 0x01 = { hi := 0x7E, lo := 0x80 } := by decide +kernel

/-- X1 to X6. -/
theorem test_timing :
    (t15Of 9600 = 1718 ∧ t35Of 9600 = 6013) ∧ (t15Of 19200 = 859 ∧ t35Of 19200 = 3006) ∧
      (t15Of 19201 = 750 ∧ t35Of 19201 = 2625) ∧ (t15Of 1 = 16500000 ∧ t35Of 1 = 57750000) ∧
      (t15Of 4800 = 3437 ∧ t35Of 4800 = 12029) := by decide +kernel

/-- A machine with slave id 1 at 9600 baud, in phase `ph`, with `f` in FRAME. -/
def inCycle (ph : Phase) (f : List Byte) : State :=
  { small 8 4 with
    phase := ph
    frameLen := f.length
    mem := { (small 8 4).mem with frame := f ++ (small 8 4).mem.frame.drop f.length }
    cfg := { slaveId := 1, baud := 9600, tGuard := 10, slaveIdWritten := true, baudWritten := true,
             tGuardWritten := true } }

/-- The RD_HR 0, 2 frame of P2, cycle 7. -/
def goodFrame : List Byte := [0x01, 0x03, 0x00, 0x00, 0x00, 0x02, 0xC4, 0x0B]

/-- S8: a wrong CRC byte. -/
theorem test_wrong_crc_is_discarded :
    (after (inCycle .frameReady [0x01, 0x03, 0x00, 0x00, 0x00, 0x02, 0xC5, 0x0B])).map State.phase = some .idle := by
  decide +kernel

theorem test_right_crc_is_dispatched : (after (inCycle .frameReady goodFrame)).map State.phase = some .dispatched := by
  decide +kernel

/-- The reply PDU to P2, cycle 7: `03 04 12 34 00 05`. -/
theorem test_dispatch_gives_the_reply_pdu :
    (after { inCycle .dispatched goodFrame with
        mem := { (inCycle .dispatched goodFrame).mem with hr := [(0, 0x1234), (1, 0x0005)] } }).map
      (fun t => (t.phase, t.reply.respPdu)) = some (Phase.reply, [0x03, 0x04, 0x12, 0x34, 0x00, 0x05]) := by decide +kernel

/-- S9: a broadcast WR_REG 1, 5 is carried out and not answered. -/
theorem test_broadcast_is_carried_out_and_suppressed :
    (after (inCycle .dispatched [0x00, 0x06, 0x00, 0x01, 0x00, 0x05, 0x19, 0xD8])).map
      (fun t => (t.phase, t.mem.readReg .hr 1)) = some (Phase.suppressed, 5) := by decide +kernel

/-! ### The hypotheses of the statements can be met -/

/-- A decoder with 12 bytes of request. -/
def ready : State := { small 8 4 with dec := { (small 8 4).dec with size := 12 } }

/-- `s` with `op` issued by the host. -/
def issuing (op : HostOp) (s : State) : State :=
  { s with env := { s.env with host := [{ after := 0, overlap := true, op := op }] } }

/-- An empty host queue is silent. -/
theorem hostSilent_of_nil (s : State) (h : s.env.host = []) : hostSilent s := by
  rintro op ⟨q, rest, he, _⟩
  rw [h] at he
  cases he

/-- `s` with a host action queued that must not be issued yet: a reset one tick away. -/
def queued (s : State) : State :=
  { s with env := { s.env with host := [{ after := 1, overlap := true, op := .reset }] } }

/-- A queued action that still waits leaves the host silent. -/
theorem hostSilent_queued (s : State) : hostSilent (queued s) := by
  rintro op ⟨q, rest, he, rfl, ha, _⟩
  cases he
  exact absurd ha (by decide)

theorem issues_issuing (op : HostOp) (s : State) : issues (issuing op s) op := ⟨_, _, rfl, rfl, rfl, Or.inl rfl⟩

theorem witness_DecodeOfEncode :
    (Instr.wrRegs 1 1 2 [0x00, 0x0A]).wf = true ∧ (Instr.wrCoils 0 2040 255 (List.replicate 255 0xFF)).wf = true ∧
      (Instr.illegalFc 0).wf = true := by decide

theorem witness_DecodedBytes : decode [0x05, 0, 3, 0xFF, 0, 0x77] = .ok (.wrCoil 3 0xFF00) := rfl

theorem witness_LongEnoughBytes : 261 ≤ (List.replicate 261 (0 : Byte)).length := by decide

/-- The short check at its two sides, the ceiling at its two sides, and a run that ends at the capacity or one past it. -/
theorem witness_ReadBits :
    (268 ≤ ready.mem.b.length ∧ ready.dec.err = false) ∧
      (¬ready.dec.size < 12 ∧ { ready.dec with size := 11 }.size < 12) ∧
      (255 < ceil8 (2041 : Word).toNat ∧ ceil8 (2040 : Word).toNat ≤ 255) ∧
      (∀ i < (8 : Word).toNat, (0 : Word).toNat + i < BitSpace.cap ready.params .co) ∧
      (∃ i < (9 : Word).toNat, BitSpace.cap ready.params .co ≤ (0 : Word).toNat + i) := by decide

theorem witness_ReadRegs :
    (268 ≤ ready.mem.b.length ∧ ready.dec.err = false) ∧
      (¬ready.dec.size < 12 ∧ { ready.dec with size := 11 }.size < 12) ∧
      (255 < 2 * (128 : Word).toNat ∧ 2 * (127 : Word).toNat ≤ 255) ∧
      (∀ i < (4 : Word).toNat, (0 : Word).toNat + i < RegSpace.cap ready.params .hr) ∧
      (∃ i < (4 : Word).toNat, RegSpace.cap ready.params .hr ≤ (1 : Word).toNat + i) := by decide

/-- The last address of the space and the one after it. -/
theorem witness_WriteSingle :
    268 ≤ ready.mem.b.length ∧ ready.mem.wf ready.params ∧ 12 ≤ ready.dec.size ∧
      ((7 : Word).toNat < ready.params.nCo ∧ ready.params.nCo ≤ (8 : Word).toNat) ∧
      ((3 : Word).toNat < ready.params.nHr ∧ ready.params.nHr ≤ (4 : Word).toNat) := by decide

/-- A payload exactly as long as declared, one byte too short, and a wrong count; a run that ends at the capacity or past it. -/
theorem witness_WriteCoils :
    (268 ≤ ready.mem.b.length ∧ ready.dec.err = false ∧ ready.mem.wf ready.params) ∧
      (13 + (1 : Byte).toNat ≤ 14 ∧ (1 : Byte).toNat = ceil8 (8 : Word).toNat) ∧
      ¬(13 + (1 : Byte).toNat ≤ 13 ∧ (1 : Byte).toNat = ceil8 (8 : Word).toNat) ∧
      ¬(13 + (2 : Byte).toNat ≤ 15 ∧ (2 : Byte).toNat = ceil8 (8 : Word).toNat) ∧
      (∀ i < (2 : Word).toNat, (6 : Word).toNat + i < ready.params.nCo) ∧
      (∃ i < (3 : Word).toNat, ready.params.nCo ≤ (6 : Word).toNat + i) := by decide

theorem witness_WriteRegs :
    (268 ≤ ready.mem.b.length ∧ ready.dec.err = false ∧ ready.mem.wf ready.params) ∧
      (13 + (4 : Byte).toNat ≤ 17 ∧ (4 : Byte).toNat = 2 * (2 : Word).toNat) ∧
      ¬(13 + (4 : Byte).toNat ≤ 16 ∧ (4 : Byte).toNat = 2 * (2 : Word).toNat) ∧
      (∀ i < (2 : Word).toNat, (2 : Word).toNat + i < ready.params.nHr) ∧
      (∃ i < (2 : Word).toNat, ready.params.nHr ≤ (3 : Word).toNat + i) := by decide

/-- The codes next to the listed ones. -/
theorem witness_UnlistedCode :
    (∀ fc ∈ [(0 : Byte), 7, 14, 17, 255], fc ∉ [(1 : Byte), 2, 3, 4, 5, 6, 15, 16]) ∧ 268 ≤ ready.mem.b.length := by decide

theorem witness_ExceptionEncoder : 9 ≤ ready.mem.b.length := by decide

/-- For the statements about any instruction's next state. -/
theorem witness_exec_next : 268 ≤ ready.mem.b.length ∧ ∃ t, exec (.rdHr 0 1) ready = .next t := ⟨by decide, _, rfl⟩

theorem witness_WrittenRegisterReadsBack :
    268 ≤ ready.mem.b.length ∧ ready.mem.wf ready.params ∧ 12 ≤ ready.dec.size ∧ (3 : Word).toNat < ready.params.nHr ∧
      ready.dec.err = false := by decide

/-- A request exactly as long as the buffer says, in the smallest buffer. -/
theorem witness_TcpStepRunsTheRequestInTheBuffer :
    let s := withRequest [0, 5, 0, 0, 0, 6, 1, 3, 0, 0, 0, 1] (small 8 4)
    s.phase = .idle ∧ issues s (.tcpProcess 12) ∧ 8 ≤ 12 ∧ 12 ≤ s.params.bufCap ∧ s.mem.b.length = s.params.bufCap ∧
      (Instr.rdHr 0 1).wf = true ∧ 7 + (encode (.rdHr 0 1)).length ≤ 12 ∧ holdsRequest s.mem.b (.rdHr 0 1) :=
  ⟨rfl, ⟨_, _, rfl, rfl, rfl, Or.inr rfl⟩, by decide, by decide, by decide, rfl, by decide, by decide⟩

theorem witness_TcpStepRunsTheDecodedInstruction :
    let s := withRequest [0, 5, 0, 0, 0, 6, 1, 3, 0, 0, 0, 1] (small 8 4)
    issues s (.tcpProcess 12) ∧
      decode (((tcpEnter 12 (popped s)).redrawB 12).mem.b.drop 7) = .ok (.rdHr 0 1) :=
  ⟨⟨_, _, rfl, rfl, rfl, Or.inr rfl⟩, rfl⟩

theorem witness_RequestWithoutFunctionCode :
    let s := withRequest [0, 1, 0, 0, 0, 1, 1] (small 8 4)
    s.phase = .idle ∧ issues s (.tcpProcess 7) ∧ 7 < 8 ∧ 268 ≤ s.params.bufCap ∧ s.mem.b.length = s.params.bufCap :=
  ⟨rfl, ⟨_, _, rfl, rfl, rfl, Or.inr rfl⟩, by decide, by decide, by decide⟩

/-- For the statements about a step in which no host action is issued: one state for each phase takes a step, with nothing
queued and with an action queued that still waits. -/
theorem witness_sequencer_steps :
    ∀ ph ∈ [Phase.idle, .accumulating, .frameReady, .dispatched, .reply, .suppressed],
      (inCycle ph goodFrame).env.host = [] ∧ (inCycle ph goodFrame).phase ≠ .tcpBusy ∧
        (after (inCycle ph goodFrame)).isSome = true ∧ (after (queued (inCycle ph goodFrame))).isSome = true := by
  decide +kernel

theorem witness_hostSilent (ph : Phase) :
    hostSilent (inCycle ph goodFrame) ∧ hostSilent (queued (inCycle ph goodFrame)) ∧
      (queued (inCycle ph goodFrame)).env.host ≠ [] :=
  ⟨hostSilent_of_nil _ rfl, hostSilent_queued _, by simp [queued]⟩

/-- An accepted cycle, and a host action that is neither a cycle nor a reset. -/
theorem witness_PhaseFollowsHostActions :
    (after (issuing .rtuCycle (inCycle .idle []))).isSome = true ∧
      issues (issuing .rtuCycle (inCycle .idle [])) .rtuCycle ∧
      (after (issuing (.fillBuffer [1]) (inCycle .reply goodFrame))).isSome = true ∧
      issues (issuing (.fillBuffer [1]) (inCycle .reply goodFrame)) (.fillBuffer [1]) :=
  ⟨by decide +kernel, issues_issuing _ _, by decide +kernel, issues_issuing _ _⟩

theorem witness_AcceptedCycle :
    let s := issuing .rtuCycle (inCycle .idle [])
    s.phase = .idle ∧ issues s .rtuCycle ∧ configured s.cfg = true ∧ s.cfg.baud ≠ 0#32 :=
  ⟨rfl, issues_issuing _ _, rfl, by decide⟩

/-- `inCycle .accumulating` with `fifo` on the line, `prev` counted before and `t` ticks to wait. -/
def polling (fifo : List Byte) (prev : Nat) (t : Tick) : State :=
  { inCycle .accumulating [] with
    env := { (inCycle .accumulating []).env with rxFifo := fifo }
    det := { prevCnt := prev, curCnt := prev }
    gapTimer := t }

/-- The three clauses: a wait of one tick, one byte more than before, and as many as before. -/
theorem witness_Poll :
    (polling [1] 0 1).gapTimer ≠ 0#32 ∧ (polling [1] 0 0).gapTimer = 0#32 ∧
      (polling [1] 0 0).det.prevCnt < (polling [1] 0 0).env.rxFifo.length ∧
      (polling [1] 1 0).env.rxFifo.length ≤ (polling [1] 1 0).det.prevCnt ∧ (polling [1] 0 0).phase = .accumulating ∧
      (polling [1] 0 0).env.host = [] := by decide

theorem witness_EmptyLine :
    (polling [] 0 0).phase = .accumulating ∧ (polling [] 0 0).env.host = [] ∧ (polling [] 0 0).gapTimer = 0#32 ∧
      (polling [] 0 0).env.rxFifo = [] := by decide

/-- A frame of RX_CAP bytes and one of RX_CAP + 1. -/
theorem witness_ReadOut :
    ∀ n ∈ [16, 17], (polling (List.replicate n 1) n 0).phase = .accumulating ∧
      (polling (List.replicate n 1) n 0).env.host = [] ∧ (polling (List.replicate n 1) n 0).gapTimer = 0#32 ∧
      (polling (List.replicate n 1) n 0).mem.frame.length = (polling (List.replicate n 1) n 0).params.rxCap ∧
      (polling (List.replicate n 1) n 0).env.rxFifo ≠ [] ∧
      (polling (List.replicate n 1) n 0).env.rxFifo.length ≤ (polling (List.replicate n 1) n 0).det.prevCnt := by decide

theorem witness_QuietLine :
    let s := polling goodFrame 0 0
    s.phase = .accumulating ∧ s.env.host = [] ∧ s.gapTimer = 0#32 ∧ s.env.line = [] ∧
      s.det.prevCnt < s.env.rxFifo.length ∧ s.env.rxFifo.length ≤ s.params.rxCap ∧
      s.mem.frame.length = s.params.rxCap := by decide

/-- A valid frame, and one that fails each of the checks: too short, foreign, wrong CRC. -/
theorem witness_FrameChecks :
    (inCycle .frameReady goodFrame).phase = .frameReady ∧ (inCycle .frameReady goodFrame).env.host = [] ∧
      frameValid (inCycle .frameReady goodFrame) ∧ ¬frameValid (inCycle .frameReady [1, 3, 0]) ∧
      ¬frameValid (inCycle .frameReady [0x02, 0x03, 0x00, 0x00, 0x00, 0x01, 0x84, 0x39]) ∧
      ¬frameValid (inCycle .frameReady [0x01, 0x03, 0x00, 0x00, 0x00, 0x02, 0xC5, 0x0B]) := by decide +kernel

/-- A request to the slave, under the default handler. -/
theorem witness_Dispatch :
    let s := inCycle .dispatched goodFrame
    s.Inv ∧ s.phase = .dispatched ∧ s.env.host = [] ∧ s.env.handler = [] ∧ frameAddr s ≠ s.params.broadcast :=
  ⟨by decide +kernel, rfl, rfl, rfl, by decide +kernel⟩

/-- A request to all. -/
theorem witness_Broadcast :
    let s := inCycle .dispatched [0x00, 0x06, 0x00, 0x01, 0x00, 0x05, 0x19, 0xD8]
    s.phase = .dispatched ∧ s.env.host = [] ∧ frameAddr s = s.params.broadcast ∧ (after s).isSome = true := by
  decide +kernel

/-- A frame for `a` that a replacement handler answers with `ws` to write. -/
def answering (a : Byte) (echo : Bool) (ws : List StoreWrite) : State :=
  { inCycle .dispatched (a :: goodFrame.tail) with
    env := { (inCycle .dispatched goodFrame).env with handler := [{ pdu := [0x41], echo := echo, writes := ws }] } }

/-- An Echo, a Normal reply and a broadcast, with a write at the last address of its space and one past it. -/
theorem witness_HandlerAnswer :
    ∀ s ∈ [answering 1 true [], answering 1 false [.bit .co 7 1, .bit .co 8 1],
        answering 0 true [.reg .hr 3 5, .reg .hr 4 5]],
      s.phase = .dispatched ∧ s.env.host = [] ∧ s.env.handler.length = 1 ∧ s.mem.wf s.params ∧
        (frameAddr s = s.params.broadcast ↔ s = answering 0 true [.reg .hr 3 5, .reg .hr 4 5]) := by decide +kernel

/-- R61, R63: the write at the last address takes effect, the one past it does not. -/
theorem test_handler_writes_in_range_only :
    (after (answering 1 false [.bit .co 7 1, .bit .co 8 1])).map (fun t => (t.mem.co, t.reply.disp, t.phase)) =
      some ([(7, 1)], .normal, .reply) ∧
    (after (answering 0 true [.reg .hr 3 5, .reg .hr 4 5])).map (fun t => (t.mem.hr, t.reply.disp, t.phase)) =
      some ([(3, 5)], .suppressed, .suppressed) := by decide +kernel

theorem witness_Timing : (1 : Tick) ≠ 0#32 ∧ (19200 : Tick) ≠ 0#32 ∧ (19201 : Tick) ≠ 0#32 ∧ (4294967295 : Tick) ≠ 0#32 := by
  decide

/-- `inCycle .reply` at one place of the transmission sequence. -/
def sending (p : TxPhase) (d : Disposition) (t : Tick) (todo : List Byte) : State :=
  { inCycle .reply goodFrame with
    tx := { txph := p, txEn := p != .none, todo := todo, crcDue := false }
    reply := { disp := d, respPdu := [0x03, 0x02, 0x12, 0x34], respPduLen := 4 }
    gapTimer := t }

/-- A wait of no tick, of one tick, and in the frame detector. -/
theorem witness_Wait :
    (sending .guard .normal 0 []).phase = .reply ∧ (sending .postDelay .normal 1 []).phase = .reply ∧
      (polling [1] 0 1).phase = .accumulating ∧ (sending .guard .normal 0 []).env.host = [] ∧
      (sending .postDelay .normal 1 []).tx.txph ∈ [TxPhase.guard, .preDelay, .postDelay] ∧
      (sending .postDelay .normal 1 []).env.host = [] ∧ (polling [1] 0 1).env.host = [] := by decide

/-- Each place of the sequence, with its wait over and with one tick left; for each disposition a reply has. -/
theorem witness_TransmitSequence :
    (∀ d ∈ [Disposition.normal, .echo], ∀ p ∈ [TxPhase.none, .guard, .preDelay, .data, .flush, .postDelay],
      (sending p d 0 []).phase = .reply ∧ (sending p d 0 []).env.host = [] ∧ (sending p d 0 []).tx.txph = p ∧
        (sending p d 0 []).gapTimer = 0#32 ∧ (sending p d 0 []).tx.todo = [] ∧ (sending p d 0 []).tx.crcDue = false ∧
        (sending p d 0 []).env.inFlight = []) ∧
      (sending .guard .normal 1 []).gapTimer ≠ 0#32 := by decide +kernel

/-- `sending` with `ts` as the transport's times and `fs` in flight. -/
def onLine (ts : List TxTiming) (fs : List InFlight) (s : State) : State :=
  { s with env := { s.env with txTimings := ts, inFlight := fs } }

/-- The clauses of the data phase and the flush: a byte taken at once, one that blocks, the CRC due, and a byte in flight. -/
theorem witness_TransmitSequence_bytes :
    ((sending .data .normal 0 [5]).tx.todo = [5] ∧ (sending .data .normal 0 [5]).env.nextTiming.accept = 0) ∧
      (onLine [{ accept := 1, leave := 3 }] [] (sending .data .normal 0 [5])).env.nextTiming.accept ≠ 0 ∧
      (let s := sending .data .normal 0 []
       { s with tx := { s.tx with crcDue := true } }.tx.crcDue = true ∧ s.tx.todo = [] ∧ s.tx.txph = .data) ∧
      (onLine [] [{ byte := 9, left := 1 }] (sending .flush .normal 0 [])).env.inFlight ≠ [] := by decide +kernel

/-- R266, R43: what the data phase starts with; a byte with a leave time stays in flight, and the flush waits for it. -/
theorem test_data_phase_and_flush :
    (after (sending .preDelay .normal 0 [])).map (fun t => (t.tx.todo, t.tx.crcDue)) =
      some ([0x01, 0x03, 0x02, 0x12, 0x34], true) ∧
    (after (onLine [{ accept := 0, leave := 2 }] [] (sending .data .normal 0 [5]))).map
      (fun t => (t.tx.todo, t.env.inFlight, t.env.sent)) = some ([], [{ byte := 5, left := 2 }], []) ∧
    (after (onLine [] [{ byte := 9, left := 1 }] (sending .flush .normal 0 []))).map
      (fun t => (t.tx.txph, t.env.inFlight, t.env.sent)) = some (.flush, [], [9]) := by decide +kernel

theorem witness_NormalReply :
    let s := sending .preDelay .normal 0 []
    s.phase = .reply ∧ s.env.host = [] ∧ s.tx.txph = .preDelay ∧ s.gapTimer = 0#32 ∧ s.reply.disp = .normal ∧
      s.reply.respPduLen = s.reply.respPdu.length ∧ s.env.inFlight = [] ∧ s.env.txTimings = [] := by decide

theorem witness_WholeReply :
    let s := sending .none .normal 0 []
    s.phase = .reply ∧ s.env.host = [] ∧ s.tx.txph = .none ∧ s.reply.disp = .normal ∧
      s.reply.respPduLen = s.reply.respPdu.length ∧ s.env.inFlight = [] ∧ s.env.txTimings = [] ∧ s.env.line = [] := by
  decide

theorem witness_EchoReply :
    let s := sending .preDelay .echo 0 []
    s.phase = .reply ∧ s.env.host = [] ∧ s.tx.txph = .preDelay ∧ s.gapTimer = 0#32 ∧ s.reply.disp = .echo ∧
      s.frameLen ≤ s.mem.frame.length ∧ s.env.inFlight = [] ∧ s.env.txTimings = [] := by decide

/-- A byte that is taken at once, and one that the transport blocks. -/
theorem witness_DataPhase :
    (let s := sending .data .normal 0 [5]
     s.env.host = [] ∧ s.phase = .reply ∧ s.tx.txph = .data ∧ s.tx.todo ≠ [] ∧ (after s).isSome = true) ∧
      (let s := sending .data .normal 0 [5]
       (after { s with env := { s.env with txTimings := [{ accept := 2, leave := 3 }] } }).map (fun t => t.tx.todo) =
         some [5]) := by decide +kernel

theorem witness_NoReceptionWhileTransmitting :
    let s := sending .data .normal 0 [5]
    s.Inv ∧ s.tx.txEn = true ∧ s.env.host = [] ∧ (after s).isSome = true :=
  ⟨by decide +kernel, rfl, rfl, by decide +kernel⟩

theorem witness_BusyMachine :
    (issuing (.tcpProcess 12) (inCycle .reply goodFrame)).phase ≠ .idle ∧
      issues (issuing (.tcpProcess 12) (inCycle .reply goodFrame)) (.tcpProcess 12) ∧
      HostOp.tcpProcess 12 ≠ .reset ∧ ∀ bytes, HostOp.tcpProcess 12 ≠ .fillBuffer bytes :=
  ⟨by decide, issues_issuing _ _, by decide, by simp⟩

/-- Why a step is refused, if it is. -/
def refusal (s : State) : Option Refusal :=
  match step s with
  | .next _ => none
  | .fault _ => none
  | .refused r => some r

/-- For each reason of refusal an action that is refused for it, at the boundary. -/
theorem witness_IdleMachine :
    refusal (issuing (.tcpProcess 269) (small 8 4)) = some .sizeOverBuffer ∧
      refusal (issuing .rtuCycle (small 8 4)) = some .cycleUnconfigured ∧
      refusal (issuing .rtuCycle { inCycle .idle [] with cfg := { (inCycle .idle []).cfg with baud := 0#32 } }) =
        some .cycleBaudZero ∧
      (∀ op ∈ [HostOp.readBit .di 8, .writeBit .co 8 1, .readReg .ir 4, .writeReg .hr 4 7],
        refusal (issuing op (small 8 4)) = some .storeOutOfRange) ∧
      refusal (issuing (.fillBuffer (List.replicate 269 1)) (small 8 4)) = some .fillOverBuffer := by decide +kernel

/-- The same actions inside the boundary are carried out. -/
theorem witness_IdleMachine_goes_on :
    ∀ op ∈ [HostOp.tcpProcess 268, .readBit .di 7, .writeBit .co 7 1, .readReg .ir 3, .writeReg .hr 3 7,
      .fillBuffer (List.replicate 268 1)], (after (issuing op (small 8 4))).isSome = true := by decide +kernel

/-- A fill of exactly the buffer's length and one byte more, while Idle and in the middle of a reply. -/
theorem witness_Fill (n : Nat) (ph : Phase) :
    issues (issuing (.fillBuffer (List.replicate n 1)) (inCycle ph goodFrame)) (.fillBuffer (List.replicate n 1)) ∧
      (inCycle ph goodFrame).mem.b.length = (inCycle ph goodFrame).params.bufCap ∧
      (List.replicate 268 (1 : Byte)).length ≤ (inCycle ph goodFrame).params.bufCap ∧
      (inCycle ph goodFrame).params.bufCap < (List.replicate 269 (1 : Byte)).length :=
  ⟨issues_issuing _ _, by simp [inCycle, small, State.resetWith], by simp [inCycle, small, State.resetWith],
    by simp [inCycle, small, State.resetWith]⟩

/-- R31, R41: a fill of two bytes over a buffer of other bytes, in the middle of a reply. -/
theorem test_fill_writes_from_offset_zero :
    (after (issuing (.fillBuffer [1, 2]) { inCycle .reply goodFrame with
      mem := { (inCycle .reply goodFrame).mem with b := List.replicate 268 7 } })).map (fun t => (t.mem.b.take 4, t.phase)) =
      some ([1, 2, 7, 7], .reply) := by decide +kernel

theorem witness_StorePort :
    (small 8 4).phase = .idle ∧ (small 8 4).mem.wf (small 8 4).params ∧
      issues (issuing (.writeBit .di 7 1) (small 8 4)) (.writeBit .di 7 1) ∧ 7 < BitSpace.cap (small 8 4).params .di ∧
      issues (issuing (.readReg .ir 3) (small 8 4)) (.readReg .ir 3) ∧ 3 < RegSpace.cap (small 8 4).params .ir :=
  ⟨rfl, by decide, issues_issuing _ _, by decide, issues_issuing _ _, by decide⟩

theorem witness_ConfigPort :
    (issuing (.writeBaud 9600) (small 8 4)).phase = .idle ∧
      issues (issuing (.writeBaud 9600) (small 8 4)) (.writeBaud 9600) ∧
      issues (issuing (.readConfig .t35) (small 8 4)) (.readConfig .t35) :=
  ⟨rfl, issues_issuing _ _, issues_issuing _ _⟩

/-- A reset in the middle of a transmission. -/
theorem witness_Reset : issues (issuing .reset (sending .data .normal 0 [5])) .reset := issues_issuing _ _

theorem witness_ResetInvariant : Params.wf { (small 0 0).params with rxCap := 4, bufCap := 268 } := by decide

/-- A state with the invariant that takes a step, with the host silent and with the host acting. -/
theorem witness_EveryStep :
    (inCycle .dispatched goodFrame).Inv ∧ (after (inCycle .dispatched goodFrame)).isSome = true ∧
      (issuing .rtuCycle (inCycle .idle [])).Inv ∧ (after (issuing .rtuCycle (inCycle .idle []))).isSome = true :=
  ⟨by decide +kernel, by decide +kernel, by decide +kernel, by decide +kernel⟩

/-- A step that changes the configuration. -/
theorem witness_ConfigurationChanges :
    (after (issuing (.writeBaud 9600) (small 8 4))).isSome = true ∧
    (after (issuing (.writeBaud 9600) (small 8 4))).map (fun t => t.cfg) ≠ some (small 8 4).cfg := by decide +kernel

end Sys2Proof.Tests
end

section
/-! PROOFS. Family 41_adu_dispatch: the exception encoder (R145, R106) and ILLEGAL_FC (R143). The rules of `State.raise` in the
words of the claims stand first, so that every instruction ending in an exception can cite them. -/

open Sys2Proof Sys2Proof.Machine Sys2Proof.Claims

namespace Sys2Proof.Machine

/-! ### The exception encoder in the words of the claims -/

theorem State.raise_exceptionAnswer (code : ExceptionCode) (s : State) (h : 9 ≤ s.mem.b.length) :
    exceptionAnswer s (s.raise code) code.toByte := by
  have hbyte := s.byteAt_raise code h
  refine ⟨rfl, s.raise_length code, hbyte 4 (by decide), hbyte 5 (by decide), hbyte 7 (by decide), hbyte 8 (by decide), ?_⟩
  intro k hk h4 h5 h7 h8
  rw [hbyte k hk, if_neg h4, if_neg h5, if_neg h7, if_neg h8]

theorem State.raise_storeSame (code : ExceptionCode) (s : State) : storeSame s (s.raise code) := by
  constructor
  · intro sp a
    cases sp <;> rfl
  · intro sp a
    cases sp <;> rfl

theorem State.raise_outsideSame (code : ExceptionCode) (s : State) : outsideSame s (s.raise code) := by
  simp [outsideSame]

theorem State.raise_decoderRegs (code : ExceptionCode) (s : State) :
    decoderRegs s (s.raise code) s.dec.lAddr s.dec.lQty s.dec.lBc s.dec.err := by
  simp [decoderRegs]

/-! ### ILLEGAL_FC -/

theorem exec_illegalFc (fc : Byte) (s : State) : exec (.illegalFc fc) s = .next (s.raise .illegalFunction) := rfl

/-- R105: a code outside the table selects no form, and the bytes after it are not looked at. -/
theorem decode_unlisted (fc : Byte) (rest : List Byte) (h : fc ∉ listedCodes) :
    decode (fc :: rest) = .ok (.illegalFc fc) := by
  have hne : fc.toNat ≠ 1 ∧ fc.toNat ≠ 2 ∧ fc.toNat ≠ 3 ∧ fc.toNat ≠ 4 ∧ fc.toNat ≠ 5 ∧ fc.toNat ≠ 6 ∧ fc.toNat ≠ 15 ∧
      fc.toNat ≠ 16 := by
    simpa [listedCodes, ← BitVec.toNat_inj] using h
  simp only [decode]
  split
  case h_9 => rfl
  all_goals omega

end Sys2Proof.Machine

/-- Settles O13: each byte below RESP_LEN by the law of the encoder's bytes, everything else by its frame; the codes by R106's
table. -/
theorem exceptionEncoderWritesFourBytes : Obligations.ExceptionEncoderWritesFourBytes := by
  refine ⟨fun code s h => ?_, rfl, rfl, rfl, rfl, rfl⟩
  exact ⟨s.raise_exceptionAnswer code h, s.raise_storeSame code, s.raise_outsideSame code, s.raise_decoderRegs code⟩

/-- Settles O12: the decoder falls through the table to ILLEGAL_FC, whose whole effect is the exception encoder with code 1. -/
theorem unlistedCodeAnswersIllegalFunction : Obligations.UnlistedCodeAnswersIllegalFunction := by
  intro fc rest s hfc hb
  refine ⟨decode_unlisted fc rest hfc, s.raise .illegalFunction, exec_illegalFc fc s, ?_⟩
  exact ⟨s.raise_exceptionAnswer _ (by omega), s.raise_storeSame _, s.raise_outsideSame _, s.raise_decoderRegs _⟩

end

section
/-! PROOFS. Family 44_rtu_frame: the empty poll (R222, R223) and the broadcast dispatch (R231, R233). The rules of the pieces a
step is made of stand first: a silent host, one poll, a decode and a PDU handler. -/

open Sys2Proof Sys2Proof.Machine Sys2Proof.Claims

namespace Sys2Proof.Machine

/-! ### A step in which the host does nothing -/

/-- A silent host leaves the step to the sequencer (log 14). -/
theorem step_of_hostSilent (s : State) (h : hostSilent s) : step s = sequence s := by
  refine step_of_not_due s fun q rest hq => Bool.eq_false_iff.mpr fun hdue => ?_
  have hnow : q.after = 0 ∧ (q.overlap = true ∨ s.phase = .idle) := by simpa [HostReq.due] using hdue
  exact h q.op ⟨q, rest, hq, rfl, hnow⟩

/-! ### The frame detector's poll -/

theorem step_of_accumulating (s : State) (hph : s.phase = .accumulating) (hs : hostSilent s) :
    step s = .next (accumulate s) := by
  rw [step_of_hostSilent s hs]
  simp only [sequence, hph]

theorem accumulate_of_gapTimer_zero (s : State) (h : s.gapTimer = 0#32) : accumulate s = poll s := if_pos h

/-- R223: reading out no byte is the end of the cycle. -/
theorem readOut_zero (s : State) : readOut 0 s = endCycle s := if_pos rfl

/-- R222: a poll that counts no more bytes than the one before reads them out. -/
theorem poll_of_no_growth (s : State) (h : s.env.rxFifo.length ≤ s.det.prevCnt) :
    poll s = readOut s.env.rxFifo.length { s with det := { s.det with curCnt := s.env.rxFifo.length } } :=
  if_neg (Nat.not_lt.mpr h)

theorem poll_of_empty (s : State) (h : s.env.rxFifo = []) :
    poll s = endCycle { s with det := { s.det with curCnt := 0 } } := by
  have hlen : s.env.rxFifo.length = 0 := by simp [h]
  rw [poll_of_no_growth s (by omega), hlen, readOut_zero]

/-! ### What a decode leaves unchanged -/

theorem State.onlyDecode_outsideSame (s u : State) (h : s.onlyDecode u) : outsideSame s u := by
  rw [State.onlyDecode] at h
  rw [h]
  simp [outsideSame]

/-- The three ends of an instruction touch nothing that `onlyDecode` keeps. -/
theorem State.endsIn_outsideSame (s t : State) (h : s.EndsIn t) : outsideSame s t := by
  cases h with
  | raise u code _ ho _ _ => simpa [outsideSame] using s.onlyDecode_outsideSame u ho
  | acknowledge u ho _ => simpa [outsideSame] using s.onlyDecode_outsideSame u ho
  | respond u bc _ ho _ _ => simpa [outsideSame] using s.onlyDecode_outsideSame u ho

/-- DECODE() keeps everything outside the decoder, the store and B, whatever the bytes of the request (R141, R142). -/
theorem decodeRequest_outsideSame (s t : State) (h : decodeRequest s = .next t) : outsideSame s t := by
  by_cases hsize : s.dec.size < 8
  · rw [decodeRequest_short s hsize] at h
    cases h
    simp [outsideSame]
  · cases hd : decode ((s.redrawB s.dec.size).mem.b.drop 7) with
    | error e => simp only [decodeRequest, if_neg hsize, hd, reduceCtorEq] at h
    | ok i =>
      rw [decodeRequest_run s i (Nat.not_lt.mp hsize) hd] at h
      simpa [outsideSame] using State.endsIn_outsideSame _ t (exec_endsIn i _ t h)

/-! ### What a PDU handler leaves unchanged -/

/-- Either handler keeps the parameters, TX_EN and the transmission sequence; outside the MBE only the queue of handler answers
moves (R46, R234). -/
theorem runHandler_frame (s u : State) (h : runHandler s = .next u) :
    u.params = s.params ∧ u.tx = s.tx ∧ u.env = { s.env with handler := s.env.handler.tail } := by
  cases hq : s.env.handler with
  | nil =>
    simp only [runHandler, hq, defaultHandler] at h
    obtain ⟨v, hv, rfl⟩ := onNext_eq_next h
    obtain ⟨hparams, -, -, -, -, -, -, htx, -, henv, -⟩ := decodeRequest_outsideSame _ v hv
    refine ⟨hparams, htx, ?_⟩
    rw [List.tail_nil, ← hq]
    exact henv
  | cons ans rest =>
    simp only [runHandler, hq] at h
    cases h
    exact ⟨rfl, rfl, rfl⟩

/-- R231: the broadcast address overrides the disposition the handler asked for. -/
theorem afterHandler_broadcast (a : Byte) (s : State) (h : a = s.params.broadcast) :
    (afterHandler a s).reply.disp = .suppressed ∧ (afterHandler a s).phase = .suppressed := by
  simp [afterHandler, h]

theorem afterHandler_tx_env (a : Byte) (s : State) : (afterHandler a s).tx = s.tx ∧ (afterHandler a s).env = s.env :=
  ⟨rfl, rfl⟩

/-- A dispatch is the handler's run and then the choice of the next phase (R233). -/
theorem step_of_dispatched (s t : State) (hph : s.phase = .dispatched) (hs : hostSilent s) (h : step s = .next t) :
    ∃ u, runHandler s = .next u ∧ t = afterHandler (frameAddr s) u := by
  rw [step_of_hostSilent s hs] at h
  simp only [sequence, hph] at h
  exact onNext_eq_next h

end Sys2Proof.Machine

/-- Settles O34: no handler changes BROADCAST_ADDR, the transmission sequence or the bytes handed over, so what follows it still
sees a broadcast and forces Suppressed. -/
theorem broadcastIsAlwaysSuppressed : Obligations.BroadcastIsAlwaysSuppressed := by
  intro s t hph hs haddr hstep
  obtain ⟨u, hu, rfl⟩ := step_of_dispatched s t hph hs hstep
  obtain ⟨hparams, htx, henv⟩ := runHandler_frame s u hu
  obtain ⟨hdisp, hphase⟩ := afterHandler_broadcast (frameAddr s) u (by rw [haddr, hparams])
  obtain ⟨htx', henv'⟩ := afterHandler_tx_env (frameAddr s) u
  exact ⟨hdisp, hphase, htx'.trans htx, by rw [transmitted, henv', henv]⟩

/-- Settles O28: the sequencer polls, and an empty FIFO is read out as no frame, which ends the cycle. -/
theorem emptyLineEndsTheCycle : Obligations.EmptyLineEndsTheCycle := by
  intro s hph hs hgap hfifo
  rw [step_of_accumulating s hph hs, accumulate_of_gapTimer_zero s hgap, poll_of_empty s hfifo, endCycle]

end

section
/-! PROOFS. Encoding (R92 to R94, R104, R105): the decoder undoes the encoder, reads nothing else, and always reads
something from as many bytes as the longest request has. The rules of the two operand forms stand first. -/

open Sys2Proof Sys2Proof.Machine Sys2Proof.Claims

namespace Sys2Proof

/-! ### The operand forms -/

/-- Forms RA and WS: what was encoded is read back. -/
theorem decodeTwoWords_encode (mk : Word → Word → Instr) (a q : Word) (rest : List Byte) :
    decodeTwoWords mk (encodeTwoWords a q ++ rest) = .ok (mk a q) := by
  simp [encodeTwoWords, decodeTwoWords]

/-- Form WM, byte by byte. -/
theorem decodeMultiple_bytes (mk : Word → Word → Byte → List Byte → Instr) (a1 a0 q1 q0 bc : Byte)
    (data rest : List Byte) (h : data.length = bc.toNat) :
    decodeMultiple mk (a1 :: a0 :: q1 :: q0 :: bc :: (data ++ rest)) = .ok (mk (be16 a1 a0) (be16 q1 q0) bc data) := by
  simp [decodeMultiple, ← h]

/-- Form WM: what was encoded is read back, when the data is as long as its byte count says. -/
theorem decodeMultiple_encode (mk : Word → Word → Byte → List Byte → Instr) (a q : Word) (bc : Byte)
    (data rest : List Byte) (h : data.length = bc.toNat) :
    decodeMultiple mk (encodeTwoWords a q ++ bc :: data ++ rest) = .ok (mk a q bc data) := by
  simpa [encodeTwoWords] using decodeMultiple_bytes mk (hi8 a) (lo8 a) (hi8 q) (lo8 q) bc data rest h

/-- Forms RA and WS are read only from two encoded words. -/
theorem decodeTwoWords_eq_ok {mk : Word → Word → Instr} {ops : List Byte} {i : Instr}
    (h : decodeTwoWords mk ops = .ok i) : ∃ a q, i = mk a q ∧ encodeTwoWords a q <+: ops := by
  unfold decodeTwoWords at h
  split at h
  · next a1 a0 q1 q0 rest =>
    cases h
    exact ⟨_, _, rfl, rest, by simp [encodeTwoWords]⟩
  · cases h

/-- Form WM is read only from two encoded words, a byte count and that many bytes. -/
theorem decodeMultiple_eq_ok {mk : Word → Word → Byte → List Byte → Instr} {ops : List Byte} {i : Instr}
    (h : decodeMultiple mk ops = .ok i) :
    ∃ a q bc data, i = mk a q bc data ∧ data.length = bc.toNat ∧ encodeTwoWords a q ++ bc :: data <+: ops := by
  unfold decodeMultiple at h
  split at h
  · next a1 a0 q1 q0 bc rest =>
    split at h
    · next hle =>
      cases h
      exact ⟨_, _, bc, _, rfl, by simpa using hle, rest.drop bc.toNat, by simp [encodeTwoWords]⟩
    · cases h
  · cases h

theorem decodeTwoWords_of_length (mk : Word → Word → Instr) (ops : List Byte) (h : 4 ≤ ops.length) :
    ∃ i, decodeTwoWords mk ops = .ok i := by
  match ops, h with
  | a1 :: a0 :: q1 :: q0 :: rest, _ => exact ⟨_, rfl⟩

/-- The byte count is below 256, so 260 bytes hold every form WM. -/
theorem decodeMultiple_of_length (mk : Word → Word → Byte → List Byte → Instr) (ops : List Byte)
    (h : 260 ≤ ops.length) : ∃ i, decodeMultiple mk ops = .ok i := by
  match ops, h with
  | a1 :: a0 :: q1 :: q0 :: bc :: rest, h =>
    have hbc : bc.toNat < 256 := bc.isLt
    have hle : bc.toNat ≤ rest.length := by simp at h; omega
    exact ⟨_, if_pos hle⟩

/-! ### The decoder -/

/-- R104: the function code selects the form. -/
theorem decode_encode_append (i : Instr) (rest : List Byte) (h : i.wf = true) :
    decode (encode i ++ rest) = .ok i := by
  cases i with
  | rdCoils a q => exact decodeTwoWords_encode .rdCoils a q rest
  | rdDi a q => exact decodeTwoWords_encode .rdDi a q rest
  | rdHr a q => exact decodeTwoWords_encode .rdHr a q rest
  | rdIr a q => exact decodeTwoWords_encode .rdIr a q rest
  | wrCoil a v => exact decodeTwoWords_encode .wrCoil a v rest
  | wrReg a v => exact decodeTwoWords_encode .wrReg a v rest
  | wrCoils a q bc d => exact decodeMultiple_encode .wrCoils a q bc d rest (by simpa [Instr.wf] using h)
  | wrRegs a q bc d => exact decodeMultiple_encode .wrRegs a q bc d rest (by simpa [Instr.wf] using h)
  | illegalFc fc => exact decode_unlisted fc rest (by simpa [Instr.wf] using h)

/-- What the table of R104 makes of a function code: one of the listed forms, or ILLEGAL_FC. -/
theorem decode_cons_cases (fc : Byte) (ops : List Byte) :
    (∃ mk : Word → Word → Instr, (∀ a q, (mk a q).wf = true ∧ encode (mk a q) = fc :: encodeTwoWords a q) ∧
      decode (fc :: ops) = decodeTwoWords mk ops) ∨
    (∃ mk : Word → Word → Byte → List Byte → Instr,
      (∀ a q bc d, (mk a q bc d).wf = (d.length == bc.toNat) ∧
        encode (mk a q bc d) = fc :: (encodeTwoWords a q ++ bc :: d)) ∧
      decode (fc :: ops) = decodeMultiple mk ops) ∨
    ((Instr.illegalFc fc).wf = true ∧ decode (fc :: ops) = .ok (.illegalFc fc)) := by
  by_cases h : fc ∈ listedCodes
  · simp only [listedCodes, List.mem_cons, List.not_mem_nil, or_false] at h
    obtain rfl | rfl | rfl | rfl | rfl | rfl | rfl | rfl := h
    · exact .inl ⟨.rdCoils, fun _ _ => ⟨rfl, rfl⟩, rfl⟩
    · exact .inl ⟨.rdDi, fun _ _ => ⟨rfl, rfl⟩, rfl⟩
    · exact .inl ⟨.rdHr, fun _ _ => ⟨rfl, rfl⟩, rfl⟩
    · exact .inl ⟨.rdIr, fun _ _ => ⟨rfl, rfl⟩, rfl⟩
    · exact .inl ⟨.wrCoil, fun _ _ => ⟨rfl, rfl⟩, rfl⟩
    · exact .inl ⟨.wrReg, fun _ _ => ⟨rfl, rfl⟩, rfl⟩
    · exact .inr (.inl ⟨.wrCoils, fun _ _ _ _ => ⟨rfl, rfl⟩, rfl⟩)
    · exact .inr (.inl ⟨.wrRegs, fun _ _ _ _ => ⟨rfl, rfl⟩, rfl⟩)
  · exact .inr (.inr ⟨by simpa [Instr.wf] using h, decode_unlisted fc ops h⟩)

/-- What the decoder reads is well formed, and the bytes begin with its encoding. -/
theorem decode_eq_ok {bs : List Byte} {i : Instr} (h : decode bs = .ok i) : i.wf = true ∧ encode i <+: bs := by
  match bs with
  | [] => cases h
  | fc :: ops =>
    obtain ⟨mk, hmk, hd⟩ | ⟨mk, hmk, hd⟩ | ⟨hwf, hd⟩ := decode_cons_cases fc ops
    · obtain ⟨a, q, rfl, hpre⟩ := decodeTwoWords_eq_ok (hd.symm.trans h)
      obtain ⟨hwf, henc⟩ := hmk a q
      exact ⟨hwf, by rw [henc]; exact List.cons_prefix_cons.mpr ⟨rfl, hpre⟩⟩
    · obtain ⟨a, q, bc, d, rfl, hlen, hpre⟩ := decodeMultiple_eq_ok (hd.symm.trans h)
      obtain ⟨hwf, henc⟩ := hmk a q bc d
      exact ⟨by simpa [hwf] using hlen, by rw [henc]; exact List.cons_prefix_cons.mpr ⟨rfl, hpre⟩⟩
    · cases hd.symm.trans h
      exact ⟨hwf, ops, rfl⟩

theorem encode_ne_nil (i : Instr) : encode i ≠ [] := by
  cases i <;> simp [encode]

/-- The decoder keeps the function code it was given. -/
theorem decode_head (fc : Byte) (ops : List Byte) (i : Instr) (h : decode (fc :: ops) = .ok i) :
    (encode i).head? = some fc := by
  obtain ⟨-, rest, hrest⟩ := decode_eq_ok h
  rw [← List.head?_append_of_ne_nil (encode i) (encode_ne_nil i), hrest, List.head?_cons]

/-- As many bytes as the longest request has always hold a request (log 7). -/
theorem decode_of_length (bs : List Byte) (h : 261 ≤ bs.length) : ∃ i, decode bs = .ok i := by
  match bs, h with
  | fc :: ops, h =>
    have hops : 260 ≤ ops.length := by simpa using h
    obtain ⟨mk, -, hd⟩ | ⟨mk, -, hd⟩ | ⟨-, hd⟩ := decode_cons_cases fc ops
    · rw [hd]; exact decodeTwoWords_of_length mk ops (by omega)
    · rw [hd]; exact decodeMultiple_of_length mk ops hops
    · exact ⟨_, hd⟩

end Sys2Proof

/-- Settles O1, by the instruction: its form is read back field by field. -/
theorem decodeOfEncodeGivesTheInstruction : Obligations.DecodeOfEncodeGivesTheInstruction :=
  fun i rest h => decode_encode_append i rest h

/-- Settles O2, by the form that the function code selects. -/
theorem decodedBytesBeginWithTheEncoding : Obligations.DecodedBytesBeginWithTheEncoding :=
  fun _ _ h => decode_eq_ok h

/-- Settles O3, each PDU by evaluation of the decoder. -/
theorem writtenOutRequestsDecode : Obligations.WrittenOutRequestsDecode :=
  ⟨rfl, rfl, rfl, rfl, rfl, rfl, rfl, rfl, rfl⟩

/-- Settles O4: every form finds its last byte within 261 bytes, and the instruction keeps the function code. -/
theorem longEnoughBytesAlwaysDecode : Obligations.LongEnoughBytesAlwaysDecode := by
  intro bs h
  obtain ⟨i, hi⟩ := decode_of_length bs h
  match bs, hi with
  | fc :: ops, hi => exact ⟨i, hi, (decode_head fc ops i hi).symm⟩

end

section
/-! PROOFS. The nine instructions (R160 to R177, R190 to R211): results, completion and frame. The rules that several
instructions share stand first: the short check, the two ends of a response, and what the store holds afterwards. -/

open Sys2Proof Sys2Proof.Machine Sys2Proof.Claims

namespace Sys2Proof.Machine

/-! ### The short check (R161, R171, R190, R195, R200, R210) -/

theorem State.withOperands_of_short (a q : Word) (s : State) (k : State → State) (h : s.dec.size < 12) :
    s.withOperands a q k = s.raise .illegalDataValue := if_pos h

theorem State.withOperands_of_long (a q : Word) (s : State) (k : State → State) (h : 12 ≤ s.dec.size) :
    s.withOperands a q k = k (s.latch a q) := if_neg (Nat.not_lt.mpr h)

/-- Every listed function opens with the same short check. -/
theorem shortAnswer_of_withOperands (i : Instr) (a q : Word) (k : State → State) (s : State)
    (hi : exec i s = .next (s.withOperands a q k)) (hb : 268 ≤ s.mem.b.length) : shortAnswer i s := by
  intro hshort
  rw [State.withOperands_of_short a q s k hshort] at hi
  exact ⟨_, hi, s.raise_exceptionAnswer _ (by omega), s.raise_storeSame _, s.raise_outsideSame _, s.raise_decoderRegs _⟩

/-! ### Completion and frame -/

theorem inRange_iff (n a : Nat) : inRange n a = true ↔ a < n := decide_eq_true_iff

/-- Every instruction answers a next state (R147, R306). -/
theorem exec_total (i : Instr) (s : State) : ∃ t, exec i s = .next t := by
  cases i <;> exact ⟨_, rfl⟩

theorem exec_outsideSame (i : Instr) (s t : State) (h : exec i s = .next t) : outsideSame s t :=
  s.endsIn_outsideSame t (exec_endsIn i s t h)

theorem exec_b_length (i : Instr) (s t : State) (h : exec i s = .next t) : t.mem.b.length = s.mem.b.length := by
  cases exec_endsIn i s t h with
  | raise u code _ _ hl _ => exact (u.raise_length code).trans hl
  | acknowledge u _ hb => rw [u.acknowledge_length, hb]
  | respond u bc _ _ hl _ => exact (u.respond_length _).trans hl

/-- R62: no instruction writes DI or IR. -/
theorem exec_di_ir (i : Instr) (s t : State) (h : exec i s = .next t) : t.mem.di = s.mem.di ∧ t.mem.ir = s.mem.ir := by
  have hmem (u : State) (ho : s.onlyDecode u) : u.mem.di = s.mem.di ∧ u.mem.ir = s.mem.ir := by
    rw [State.onlyDecode] at ho
    rw [ho]
    exact ⟨rfl, rfl⟩
  cases exec_endsIn i s t h with
  | raise u _ _ ho _ _ => exact hmem u ho
  | acknowledge u ho _ => exact hmem u ho
  | respond u _ _ ho _ _ => exact hmem u ho

/-! ### The reads as one operation (R160 to R177) -/

theorem exec_bitRead (sp : BitSpace) (start qty : Word) (s : State) :
    exec (bitRead sp start qty) s = .next (readBits sp start qty s) := by
  cases sp <;> rfl

theorem exec_regRead (sp : RegSpace) (start qty : Word) (s : State) :
    exec (regRead sp start qty) s = .next (readRegs sp start qty s) := by
  cases sp <;> rfl

/-- What a read leaves just before its end: the byte count and the packed data in B from offset 8 on, and ERR (R163,
R173). -/
def readLoop (n bc : Nat) (packed : List Byte) (start qty : Word) (s : State) : State :=
  ((s.latch start qty).putB 8 (BitVec.ofNat 8 bc :: packed)).accumErr n start qty

/-- The packed data of a bit read. -/
def packedBits (sp : BitSpace) (start qty : Word) (s : State) : List Byte :=
  packBits qty.toNat fun i =>
    inRange (sp.cap s.params) (start.toNat + i) && decide (s.mem.readBit sp (start.toNat + i) = 1)

/-- The packed data of a register read; the bytes of an out-of-range word stay. -/
def packedWords (sp : RegSpace) (start qty : Word) (s : State) : List Byte :=
  packWords qty.toNat fun i =>
    if inRange (sp.cap s.params) (start.toNat + i) then s.mem.readReg sp (start.toNat + i)
    else be16 (byteAt s.mem.b (9 + 2 * i)) (byteAt s.mem.b (10 + 2 * i))

/-- The end of a read, over its byte count and data (R162 to R164, R172 to R174). -/
def readEnd (n bc : Nat) (packed : List Byte) (start qty : Word) (s : State) : State :=
  if 255 < bc then (s.latch start qty).raise .illegalDataAddress
  else if s.dec.err || anyOutOfRange n start.toNat qty.toNat then
    (readLoop n bc packed start qty s).raise .illegalDataAddress
  else (readLoop n bc packed start qty s).respond (3 + bc)

theorem readBits_of_long (sp : BitSpace) (start qty : Word) (s : State) (h : 12 ≤ s.dec.size) :
    readBits sp start qty s =
      readEnd (sp.cap s.params) (ceil8 qty.toNat) (packedBits sp start qty s) start qty s :=
  State.withOperands_of_long _ _ _ _ h

theorem readRegs_of_long (sp : RegSpace) (start qty : Word) (s : State) (h : 12 ≤ s.dec.size) :
    readRegs sp start qty s =
      readEnd (sp.cap s.params) (2 * qty.toNat) (packedWords sp start qty s) start qty s :=
  State.withOperands_of_long _ _ _ _ h

theorem readEnd_co_hr (n bc : Nat) (packed : List Byte) (start qty : Word) (s : State) :
    (readEnd n bc packed start qty s).mem.co = s.mem.co ∧ (readEnd n bc packed start qty s).mem.hr = s.mem.hr := by
  unfold readEnd
  split
  · exact ⟨rfl, rfl⟩
  · split <;> exact ⟨rfl, rfl⟩

/-- R166: the reads write no element. -/
theorem readBits_co_hr (sp : BitSpace) (start qty : Word) (s : State) :
    (readBits sp start qty s).mem.co = s.mem.co ∧ (readBits sp start qty s).mem.hr = s.mem.hr := by
  obtain h | h := Nat.lt_or_ge s.dec.size 12
  · rw [readBits, State.withOperands_of_short _ _ _ _ h]
    exact ⟨rfl, rfl⟩
  · rw [readBits_of_long _ _ _ _ h]
    exact readEnd_co_hr _ _ _ _ _ _

theorem readRegs_co_hr (sp : RegSpace) (start qty : Word) (s : State) :
    (readRegs sp start qty s).mem.co = s.mem.co ∧ (readRegs sp start qty s).mem.hr = s.mem.hr := by
  obtain h | h := Nat.lt_or_ge s.dec.size 12
  · rw [readRegs, State.withOperands_of_short _ _ _ _ h]
    exact ⟨rfl, rfl⟩
  · rw [readRegs_of_long _ _ _ _ h]
    exact readEnd_co_hr _ _ _ _ _ _

/-! ### What the spaces hold after an instruction -/

/-- R202: the end of a write-multiple leaves the store as the element loop left it. -/
theorem closeMultiple_co_hr (s : State) : (closeMultiple s).mem.co = s.mem.co ∧ (closeMultiple s).mem.hr = s.mem.hr := by
  unfold closeMultiple
  split <;> exact ⟨rfl, rfl⟩

/-- The two ways an instruction can change the coils: one in-range write of FC5, or the run of writes of FC15. -/
inductive CoilsWritten (s : State) : Instr → Cells 1 → Prop where
  | single (a v : Word) (h : a.toNat < s.params.nCo) :
      CoilsWritten s (.wrCoil a v) (s.mem.co.write a.toNat (coilValue v))
  | multiple (a q : Word) (bc : Byte) (d : List Byte) :
      CoilsWritten s (.wrCoils a q bc d) (Cells.writeFrom s.params.nCo a.toNat (unpackBits q.toNat d) s.mem.co)

/-- The two ways an instruction can change the holding registers: FC6 and FC16. -/
inductive RegsWritten (s : State) : Instr → Cells 16 → Prop where
  | single (a v : Word) (h : a.toNat < s.params.nHr) : RegsWritten s (.wrReg a v) (s.mem.hr.write a.toNat v)
  | multiple (a q : Word) (bc : Byte) (d : List Byte) :
      RegsWritten s (.wrRegs a q bc d) (Cells.writeFrom s.params.nHr a.toNat (unpackWords q.toNat d) s.mem.hr)

/-- An instruction leaves CO and HR, or it is a write of one of them and leaves the other. -/
theorem exec_co_hr (i : Instr) (s t : State) (h : exec i s = .next t) :
    (t.mem.co = s.mem.co ∨ CoilsWritten s i t.mem.co) ∧ (t.mem.hr = s.mem.hr ∨ RegsWritten s i t.mem.hr) := by
  have hkeep {t : State} (h : t.mem.co = s.mem.co ∧ t.mem.hr = s.mem.hr) :
      (t.mem.co = s.mem.co ∨ CoilsWritten s i t.mem.co) ∧ (t.mem.hr = s.mem.hr ∨ RegsWritten s i t.mem.hr) :=
    h.imp .inl .inl
  cases i with
  | rdCoils a q => cases h; exact hkeep (readBits_co_hr .co a q s)
  | rdDi a q => cases h; exact hkeep (readBits_co_hr .di a q s)
  | rdHr a q => cases h; exact hkeep (readRegs_co_hr .hr a q s)
  | rdIr a q => cases h; exact hkeep (readRegs_co_hr .ir a q s)
  | illegalFc fc => cases h; exact hkeep ⟨rfl, rfl⟩
  | wrCoil a v =>
    cases h
    unfold State.withOperands wrCoilBody
    split
    · exact hkeep ⟨rfl, rfl⟩
    · split
      · next hin => exact ⟨.inr (.single a v ((inRange_iff _ _).mp hin)), .inl rfl⟩
      · exact hkeep ⟨rfl, rfl⟩
  | wrReg a v =>
    cases h
    unfold State.withOperands wrRegBody
    split
    · exact hkeep ⟨rfl, rfl⟩
    · split
      · next hin => exact ⟨.inl rfl, .inr (.single a v ((inRange_iff _ _).mp hin))⟩
      · exact hkeep ⟨rfl, rfl⟩
  | wrCoils a q bc d =>
    cases h
    unfold State.withOperands wrCoilsBody
    split
    · exact hkeep ⟨rfl, rfl⟩
    · split
      · simp only [closeMultiple_co_hr]
        exact ⟨.inr (.multiple a q bc d), .inl rfl⟩
      · exact hkeep ⟨rfl, rfl⟩
  | wrRegs a q bc d =>
    cases h
    unfold State.withOperands wrRegsBody
    split
    · exact hkeep ⟨rfl, rfl⟩
    · split
      · simp only [closeMultiple_co_hr]
        exact ⟨.inl rfl, .inr (.multiple a q bc d)⟩
      · exact hkeep ⟨rfl, rfl⟩

/-- Every instruction keeps the form of memory. -/
theorem exec_mem_wf (i : Instr) (s t : State) (h : exec i s = .next t) (hw : s.mem.wf s.params) : t.mem.wf s.params := by
  obtain ⟨⟨hdi, hco, hir, hhr⟩, hb, hf⟩ := hw
  obtain ⟨edi, eir⟩ := exec_di_ir i s t h
  obtain ⟨eco, ehr⟩ := exec_co_hr i s t h
  obtain ⟨-, -, -, -, -, -, -, -, -, -, eframe⟩ := exec_outsideSame i s t h
  have hco' : t.mem.co.wf s.params.nCo := by
    obtain e | e := eco
    · rwa [e]
    · generalize t.mem.co = c at e
      cases e with
      | single a v ha => exact Cells.write_wf _ _ _ ha hco
      | multiple a q bc d => exact Cells.writeFrom_wf _ _ _ hco
  have hhr' : t.mem.hr.wf s.params.nHr := by
    obtain e | e := ehr
    · rwa [e]
    · generalize t.mem.hr = c at e
      cases e with
      | single a v ha => exact Cells.write_wf _ _ _ ha hhr
      | multiple a q bc d => exact Cells.writeFrom_wf _ _ _ hhr
  exact ⟨⟨by rwa [edi], hco', by rwa [eir], hhr'⟩, (exec_b_length i s t h).trans hb, by rwa [eframe]⟩

/-- Equal spaces read the same. -/
theorem storeSame_of_eq {s t : State} (hdi : t.mem.di = s.mem.di) (hco : t.mem.co = s.mem.co) (hir : t.mem.ir = s.mem.ir)
    (hhr : t.mem.hr = s.mem.hr) : storeSame s t := by
  constructor
  · intro sp a
    cases sp
    · simp only [Memory.readBit, hdi]
    · simp only [Memory.readBit, hco]
  · intro sp a
    cases sp
    · simp only [Memory.readReg, hir]
    · simp only [Memory.readReg, hhr]

/-! ### The bytes of a response -/

/-- An exception raised over a buffer that still holds the request's header and function code. -/
theorem exceptionAnswer_raise (s u : State) (code : ExceptionCode) (hs : 9 ≤ s.mem.b.length)
    (hl : u.mem.b.length = s.mem.b.length) (hb : ∀ k < 8, byteAt u.mem.b k = byteAt s.mem.b k) :
    exceptionAnswer s (u.raise code) code.toByte := by
  obtain ⟨hr, hlen, h4, h5, h7, h8, hk⟩ := u.raise_exceptionAnswer code (by omega)
  refine ⟨hr, hlen.trans hl, h4, h5, by rw [h7, hb 7 (by decide)], h8, ?_⟩
  intro k hk9 n4 n5 n7 n8
  rw [hk k hk9 n4 n5 n7 n8, hb k (by omega)]

/-- The acknowledgment over the request's own buffer. -/
theorem acknowledged_acknowledge (s u : State) (hs : 12 ≤ s.mem.b.length) (hb : u.mem.b = s.mem.b) :
    acknowledged s u.acknowledge := by
  have hbyte := u.byteAt_acknowledge (by rw [hb]; exact hs)
  refine ⟨rfl, by rw [u.acknowledge_length, hb], hbyte 4 (by decide), hbyte 5 (by decide), ?_⟩
  intro k hk h4 h5
  rw [hbyte k hk, if_neg h4, if_neg h5, hb]

/-- A read response: the header form of RB and RR, then the packed data from offset 9 on (R95, R96). -/
theorem readAnswer_respond (s u : State) (bc : Nat) (packed : List Byte) (hs : 268 ≤ s.mem.b.length) (hbc : bc ≤ 255)
    (hp : packed.length = bc) (hu : u.mem.b = putBytes 8 (BitVec.ofNat 8 bc :: packed) s.mem.b) :
    readAnswer s (u.respond (3 + bc)) bc ∧ ∀ j < bc, byteAt (u.respond (3 + bc)).mem.b (9 + j) = byteAt packed j := by
  have hul : u.mem.b.length = s.mem.b.length := by rw [hu, putBytes_length]
  have hbyte := u.byteAt_respond (3 + bc) (by omega)
  have hput (k : Nat) := byteAt_putBytes 8 (BitVec.ofNat 8 bc :: packed) s.mem.b k (by simp; omega)
  simp only [List.length_cons, hp] at hput
  refine ⟨⟨by simp; omega, by rw [u.respond_length, hul], hbyte 4 (by omega), hbyte 5 (by omega), ?_, ?_⟩, ?_⟩
  · rw [hbyte 8 (by omega), if_neg (by decide), if_neg (by decide), hu, hput, if_pos (by omega)]
    rfl
  · intro k hk h4 h5
    rw [hbyte k (by omega), if_neg h4, if_neg h5, hu, hput, if_neg (by omega)]
  · intro j hj
    rw [hbyte (9 + j) (by omega), if_neg (by omega), if_neg (by omega), hu, hput, if_pos (by omega),
      show 9 + j - 8 = j + 1 by omega]
    rfl

/-! ### The three ends of a read -/

section ReadEnd

variable (n bc : Nat) (packed : List Byte) (start qty : Word) (s : State) (hb : 268 ≤ s.mem.b.length)
  (he : s.dec.err = false)

include hb

include he in
/-- R162, R172: a read over the ceiling. -/
theorem readEnd_over_ceiling (h : 255 < bc) :
    exceptionAnswer s (readEnd n bc packed start qty s) 0x02 ∧
      decoderRegs s (readEnd n bc packed start qty s) start qty s.dec.lBc false := by
  rw [readEnd, if_pos h]
  exact ⟨exceptionAnswer_raise s _ .illegalDataAddress (by omega) rfl fun _ _ => rfl, by simp [decoderRegs, he]⟩

/-- R163, R173: a read with an element out of range. -/
theorem readEnd_out_of_range (hbc : bc ≤ 255) (hp : packed.length = bc) (h : ∃ i < qty.toNat, n ≤ start.toNat + i) :
    exceptionAnswer s (readEnd n bc packed start qty s) 0x02 ∧
      decoderRegs s (readEnd n bc packed start qty s) start qty s.dec.lBc true := by
  have hany := (anyOutOfRange_eq_true n start.toNat qty.toNat).mpr h
  rw [readEnd, if_neg (Nat.not_lt.mpr hbc), if_pos (by simp [hany])]
  refine ⟨exceptionAnswer_raise s _ .illegalDataAddress (by omega) (by simp [readLoop]) ?_, ?_⟩
  · exact byteAt_putBytes_eight _ _ (by simp; omega) hb
  · simp [decoderRegs, readLoop, hany]

include he in
/-- R164, R174: a read whose elements are all in range. -/
theorem readEnd_in_range (hbc : bc ≤ 255) (hp : packed.length = bc) (h : ∀ i < qty.toNat, start.toNat + i < n) :
    readAnswer s (readEnd n bc packed start qty s) bc ∧
      decoderRegs s (readEnd n bc packed start qty s) start qty s.dec.lBc false ∧
      ∀ j < bc, byteAt (readEnd n bc packed start qty s).mem.b (9 + j) = byteAt packed j := by
  have hany := (anyOutOfRange_eq_false n start.toNat qty.toNat).mpr h
  rw [readEnd, if_neg (Nat.not_lt.mpr hbc), if_neg (by simp [hany, he])]
  obtain ⟨hanswer, hdata⟩ := readAnswer_respond s (readLoop n bc packed start qty s) bc packed hb hbc hp rfl
  exact ⟨hanswer, by simp [decoderRegs, readLoop, hany, he], hdata⟩

end ReadEnd

theorem packedBits_length (sp : BitSpace) (start qty : Word) (s : State) :
    (packedBits sp start qty s).length = ceil8 qty.toNat := packBits_length _ _

theorem packedWords_length (sp : RegSpace) (start qty : Word) (s : State) :
    (packedWords sp start qty s).length = 2 * qty.toNat := packWords_length _ _

/-- R100: the packed bits of in-range elements, with zero padding. -/
theorem packedBits_getLsbD (sp : BitSpace) (start qty : Word) (s : State)
    (h : ∀ i < qty.toNat, start.toNat + i < sp.cap s.params) (i : Nat) (hi : i < 8 * ceil8 qty.toNat) :
    (byteAt (packedBits sp start qty s) (i / 8)).getLsbD (i % 8) =
      (decide (i < qty.toNat) && decide (s.mem.readBit sp (start.toNat + i) = 1)) := by
  rw [packedBits, byteAt_packBits _ _ _ (by omega)]
  by_cases hq : i < qty.toNat
  · simp [hq, inRange, h i hq]
  · simp [hq]

/-- R96: the packed words of in-range elements, high byte first. -/
theorem byteAt_packedWords (sp : RegSpace) (start qty : Word) (s : State)
    (h : ∀ i < qty.toNat, start.toNat + i < sp.cap s.params) (i : Nat) (hi : i < qty.toNat) :
    byteAt (packedWords sp start qty s) (2 * i) = hi8 (s.mem.readReg sp (start.toNat + i)) ∧
      byteAt (packedWords sp start qty s) (2 * i + 1) = lo8 (s.mem.readReg sp (start.toNat + i)) := by
  have hin := (inRange_iff _ _).mpr (h i hi)
  rw [packedWords, (byteAt_packWords _ _ i hi).1, (byteAt_packWords _ _ i hi).2, if_pos hin]
  exact ⟨rfl, rfl⟩

theorem readBits_storeSame (sp : BitSpace) (start qty : Word) (s : State) : storeSame s (readBits sp start qty s) := by
  obtain ⟨hdi, hir⟩ := exec_di_ir _ s _ (exec_bitRead sp start qty s)
  obtain ⟨hco, hhr⟩ := readBits_co_hr sp start qty s
  exact storeSame_of_eq hdi hco hir hhr

theorem readRegs_storeSame (sp : RegSpace) (start qty : Word) (s : State) : storeSame s (readRegs sp start qty s) := by
  obtain ⟨hdi, hir⟩ := exec_di_ir _ s _ (exec_regRead sp start qty s)
  obtain ⟨hco, hhr⟩ := readRegs_co_hr sp start qty s
  exact storeSame_of_eq hdi hco hir hhr

end Sys2Proof.Machine

/-- Settles O5: the short check, and then the three ends of a read. -/
theorem readBitsAnswersThePackedBits : Obligations.ReadBitsAnswersThePackedBits := by
  refine ⟨fun _ _ _ _ _ => rfl, fun _ _ _ _ _ => rfl, fun sp start qty s hb he => ?_⟩
  have hexec := exec_bitRead sp start qty s
  refine ⟨shortAnswer_of_withOperands _ start qty _ s hexec hb, fun hlong => ⟨_, hexec, ?_⟩⟩
  refine ⟨readBits_storeSame sp start qty s, exec_outsideSame _ s _ hexec, ?_⟩
  rw [readBits_of_long sp start qty s hlong]
  have hlen := packedBits_length sp start qty s
  refine ⟨readEnd_over_ceiling _ _ _ start qty s hb he,
    fun hbc => readEnd_out_of_range _ _ _ start qty s hb hbc hlen, fun hbc hin => ?_⟩
  obtain ⟨hanswer, hregs, hdata⟩ := readEnd_in_range _ _ _ start qty s hb he hbc hlen hin
  refine ⟨hanswer, hregs, fun i hi => ?_⟩
  rw [hdata (i / 8) (by omega), packedBits_getLsbD sp start qty s hin i hi]

/-- Settles O6: as O5, with the packed words. -/
theorem readRegsAnswersTheWords : Obligations.ReadRegsAnswersTheWords := by
  refine ⟨fun _ _ _ _ _ => rfl, fun _ _ _ _ _ => rfl, fun sp start qty s hb he => ?_⟩
  have hexec := exec_regRead sp start qty s
  refine ⟨shortAnswer_of_withOperands _ start qty _ s hexec hb, fun hlong => ⟨_, hexec, ?_⟩⟩
  refine ⟨readRegs_storeSame sp start qty s, exec_outsideSame _ s _ hexec, ?_⟩
  rw [readRegs_of_long sp start qty s hlong]
  have hlen := packedWords_length sp start qty s
  refine ⟨readEnd_over_ceiling _ _ _ start qty s hb he,
    fun hbc => readEnd_out_of_range _ _ _ start qty s hb hbc hlen, fun hbc hin => ?_⟩
  obtain ⟨hanswer, hregs, hdata⟩ := readEnd_in_range _ _ _ start qty s hb he hbc hlen hin
  refine ⟨hanswer, hregs, fun i hi => ?_⟩
  obtain ⟨hhi, hlo⟩ := byteAt_packedWords sp start qty s hin i hi
  rw [show 10 + 2 * i = 9 + (2 * i + 1) by omega, hdata (2 * i) (by omega), hdata (2 * i + 1) (by omega)]
  exact ⟨hhi, hlo⟩

/-! ### The writes (R190 to R211) -/

namespace Sys2Proof.Machine

/-- `u` is the request `s` just before its end, with only the store changed: B is still the request's. -/
theorem exceptionAnswer_raise_of_b_eq (s u : State) (code : ExceptionCode) (hs : 268 ≤ s.mem.b.length)
    (hb : u.mem.b = s.mem.b) : exceptionAnswer s (u.raise code) code.toByte :=
  exceptionAnswer_raise s u code (by omega) (by rw [hb]) fun _ _ => by rw [hb]

theorem wrCoilBody_of_in_range (addr val : Word) (s : State) (h : addr.toNat < s.params.nCo) :
    wrCoilBody addr val s = State.acknowledge { s with mem := s.mem.writeBit .co addr.toNat (coilValue val) } :=
  if_pos ((inRange_iff _ _).mpr h)

theorem wrCoilBody_of_out_of_range (addr val : Word) (s : State) (h : s.params.nCo ≤ addr.toNat) :
    wrCoilBody addr val s = s.raise .illegalDataAddress :=
  if_neg fun hin => Nat.not_lt.mpr h ((inRange_iff _ _).mp hin)

theorem wrRegBody_of_in_range (addr val : Word) (s : State) (h : addr.toNat < s.params.nHr) :
    wrRegBody addr val s = State.acknowledge { s with mem := s.mem.writeReg .hr addr.toNat val } :=
  if_pos ((inRange_iff _ _).mpr h)

theorem wrRegBody_of_out_of_range (addr val : Word) (s : State) (h : s.params.nHr ≤ addr.toNat) :
    wrRegBody addr val s = s.raise .illegalDataAddress :=
  if_neg fun hin => Nat.not_lt.mpr h ((inRange_iff _ _).mp hin)

theorem exec_wrCoil_of_long (addr val : Word) (s : State) (h : 12 ≤ s.dec.size) :
    exec (.wrCoil addr val) s = .next (wrCoilBody addr val (s.latch addr val)) :=
  congrArg _ (State.withOperands_of_long _ _ _ _ h)

theorem exec_wrReg_of_long (addr val : Word) (s : State) (h : 12 ≤ s.dec.size) :
    exec (.wrReg addr val) s = .next (wrRegBody addr val (s.latch addr val)) :=
  congrArg _ (State.withOperands_of_long _ _ _ _ h)

/-! What one bit or register write leaves at every element of the store. -/

theorem Memory.readBit_writeBit_same (p : Params) (m : Memory) (sp : BitSpace) (a : Nat) (v : BitVec 1) (h : m.wf p) :
    (m.writeBit sp a v).readBit sp a = v := by
  obtain ⟨⟨hdi, hco, -, -⟩, -, -⟩ := h
  cases sp
  · exact Cells.read_write_same _ _ _ hdi
  · exact Cells.read_write_same _ _ _ hco

theorem Memory.readBit_writeBit_other (m : Memory) (sp sp' : BitSpace) (a a' : Nat) (v : BitVec 1)
    (h : sp' ≠ sp ∨ a' ≠ a) : (m.writeBit sp a v).readBit sp' a' = m.readBit sp' a' := by
  by_cases hsp : sp' = sp
  · subst hsp
    have ha : a' ≠ a := h.resolve_left (not_not_intro rfl)
    cases sp' <;> exact Cells.read_write_other _ _ _ _ ha
  · cases sp with
    | di =>
      cases sp' with
      | di => exact absurd rfl hsp
      | co => rfl
    | co =>
      cases sp' with
      | di => rfl
      | co => exact absurd rfl hsp

theorem Memory.readReg_writeReg_same (p : Params) (m : Memory) (sp : RegSpace) (a : Nat) (v : Word) (h : m.wf p) :
    (m.writeReg sp a v).readReg sp a = v := by
  obtain ⟨⟨-, -, hir, hhr⟩, -, -⟩ := h
  cases sp
  · exact Cells.read_write_same _ _ _ hir
  · exact Cells.read_write_same _ _ _ hhr

theorem Memory.readReg_writeReg_other (m : Memory) (sp sp' : RegSpace) (a a' : Nat) (v : Word)
    (h : sp' ≠ sp ∨ a' ≠ a) : (m.writeReg sp a v).readReg sp' a' = m.readReg sp' a' := by
  by_cases hsp : sp' = sp
  · subst hsp
    have ha : a' ≠ a := h.resolve_left (not_not_intro rfl)
    cases sp' <;> exact Cells.read_write_other _ _ _ _ ha
  · cases sp with
    | ir =>
      cases sp' with
      | ir => exact absurd rfl hsp
      | hr => rfl
    | hr =>
      cases sp' with
      | ir => rfl
      | hr => exact absurd rfl hsp

theorem Memory.readReg_writeBit (m : Memory) (sp : BitSpace) (a : Nat) (v : BitVec 1) (sp' : RegSpace) (a' : Nat) :
    (m.writeBit sp a v).readReg sp' a' = m.readReg sp' a' := by
  cases sp <;> cases sp' <;> rfl

theorem Memory.readBit_writeReg (m : Memory) (sp : RegSpace) (a : Nat) (v : Word) (sp' : BitSpace) (a' : Nat) :
    (m.writeReg sp a v).readBit sp' a' = m.readBit sp' a' := by
  cases sp <;> cases sp' <;> rfl

/-- The end of an instruction moves no element: the store reads as just before it. -/
theorem State.acknowledge_readBit (u : State) (sp : BitSpace) (a : Nat) :
    u.acknowledge.mem.readBit sp a = u.mem.readBit sp a := by
  cases sp <;> rfl

theorem State.acknowledge_readReg (u : State) (sp : RegSpace) (a : Nat) :
    u.acknowledge.mem.readReg sp a = u.mem.readReg sp a := by
  cases sp <;> rfl

end Sys2Proof.Machine

/-- Settles O8: the short check, then the range check at its two sides. -/
theorem writeCoilSetsItsCoil : Obligations.WriteCoilSetsItsCoil := by
  refine ⟨fun _ _ _ _ _ => rfl, fun addr val s hb hw => ?_⟩
  refine ⟨shortAnswer_of_withOperands _ addr val _ s rfl hb, fun hlong => ⟨_, exec_wrCoil_of_long addr val s hlong, ?_⟩⟩
  refine ⟨exec_outsideSame _ s _ (exec_wrCoil_of_long addr val s hlong), ?_⟩
  obtain hin | hout := Nat.lt_or_ge addr.toNat s.params.nCo
  · rw [wrCoilBody_of_in_range addr val (s.latch addr val) hin]
    refine ⟨⟨rfl, rfl, rfl, rfl, rfl, rfl⟩, fun hout => absurd hin (Nat.not_lt.mpr hout), fun _ => ?_⟩
    refine ⟨acknowledged_acknowledge s _ (by omega) rfl, ?_, fun sp a hne => ?_, fun sp a => ?_⟩
    · rw [State.acknowledge_readBit]
      exact Memory.readBit_writeBit_same s.params s.mem .co addr.toNat (coilValue val) hw
    · rw [State.acknowledge_readBit]
      exact Memory.readBit_writeBit_other s.mem .co sp addr.toNat a (coilValue val) hne
    · rw [State.acknowledge_readReg]
      exact Memory.readReg_writeBit s.mem .co addr.toNat (coilValue val) sp a
  · rw [wrCoilBody_of_out_of_range addr val (s.latch addr val) hout]
    refine ⟨⟨rfl, rfl, rfl, rfl, rfl, rfl⟩, fun _ => ?_, fun hin => absurd hin (Nat.not_lt.mpr hout)⟩
    exact ⟨exceptionAnswer_raise_of_b_eq s _ .illegalDataAddress hb rfl, storeSame_of_eq rfl rfl rfl rfl⟩

/-- Settles O9: as O8, for a holding register. -/
theorem writeRegStoresTheWordVerbatim : Obligations.WriteRegStoresTheWordVerbatim := by
  refine ⟨fun _ _ _ _ _ => rfl, fun addr val s hb hw => ?_⟩
  refine ⟨shortAnswer_of_withOperands _ addr val _ s rfl hb, fun hlong => ⟨_, exec_wrReg_of_long addr val s hlong, ?_⟩⟩
  refine ⟨exec_outsideSame _ s _ (exec_wrReg_of_long addr val s hlong), ?_⟩
  obtain hin | hout := Nat.lt_or_ge addr.toNat s.params.nHr
  · rw [wrRegBody_of_in_range addr val (s.latch addr val) hin]
    refine ⟨⟨rfl, rfl, rfl, rfl, rfl, rfl⟩, fun hout => absurd hin (Nat.not_lt.mpr hout), fun _ => ?_⟩
    refine ⟨acknowledged_acknowledge s _ (by omega) rfl, ?_, fun sp a hne => ?_, fun sp a => ?_⟩
    · rw [State.acknowledge_readReg]
      exact Memory.readReg_writeReg_same s.params s.mem .hr addr.toNat val hw
    · rw [State.acknowledge_readReg]
      exact Memory.readReg_writeReg_other s.mem .hr sp addr.toNat a val hne
    · rw [State.acknowledge_readBit]
      exact Memory.readBit_writeReg s.mem .hr addr.toNat val sp a
  · rw [wrRegBody_of_out_of_range addr val (s.latch addr val) hout]
    refine ⟨⟨rfl, rfl, rfl, rfl, rfl, rfl⟩, fun _ => ?_, fun hin => absurd hin (Nat.not_lt.mpr hout)⟩
    exact ⟨exceptionAnswer_raise_of_b_eq s _ .illegalDataAddress hb rfl, storeSame_of_eq rfl rfl rfl rfl⟩

namespace Sys2Proof.Machine

/-! ### The write-multiples -/

/-- The element loop of FC15 on the latched request: the coils, L_BC and ERR (R200, R202). -/
def coilLoop (start qty : Word) (bc : Byte) (data : List Byte) (s : State) : State :=
  State.accumErr s.params.nCo start qty
    { (s.latch start qty).latchBc bc with
      mem := { s.mem with co := Cells.writeFrom s.params.nCo start.toNat (unpackBits qty.toNat data) s.mem.co } }

/-- The element loop of FC16. -/
def regLoop (start qty : Word) (bc : Byte) (data : List Byte) (s : State) : State :=
  State.accumErr s.params.nHr start qty
    { (s.latch start qty).latchBc bc with
      mem := { s.mem with hr := Cells.writeFrom s.params.nHr start.toNat (unpackWords qty.toNat data) s.mem.hr } }

theorem coilLoop_hr (start qty : Word) (bc : Byte) (data : List Byte) (s : State) :
    (coilLoop start qty bc data s).mem.hr = s.mem.hr := rfl

theorem regLoop_co (start qty : Word) (bc : Byte) (data : List Byte) (s : State) :
    (regLoop start qty bc data s).mem.co = s.mem.co := rfl

theorem exec_wrCoils_of_payload (start qty : Word) (bc : Byte) (data : List Byte) (s : State) (h : 12 ≤ s.dec.size)
    (hp : 13 + bc.toNat ≤ s.dec.size ∧ bc.toNat = ceil8 qty.toNat) :
    exec (.wrCoils start qty bc data) s = .next (closeMultiple (coilLoop start qty bc data s)) := by
  have hok := (payloadOk_iff _ bc (s.latch start qty)).mpr hp
  exact congrArg _ ((State.withOperands_of_long start qty s (wrCoilsBody start qty bc data) h).trans (if_pos hok))

theorem exec_wrCoils_of_bad_payload (start qty : Word) (bc : Byte) (data : List Byte) (s : State) (h : 12 ≤ s.dec.size)
    (hp : ¬(13 + bc.toNat ≤ s.dec.size ∧ bc.toNat = ceil8 qty.toNat)) :
    exec (.wrCoils start qty bc data) s = .next ((s.latch start qty).raise .illegalDataValue) := by
  have hbad := mt (payloadOk_iff _ bc (s.latch start qty)).mp hp
  exact congrArg _ ((State.withOperands_of_long start qty s (wrCoilsBody start qty bc data) h).trans (if_neg hbad))

theorem exec_wrRegs_of_payload (start qty : Word) (bc : Byte) (data : List Byte) (s : State) (h : 12 ≤ s.dec.size)
    (hp : 13 + bc.toNat ≤ s.dec.size ∧ bc.toNat = 2 * qty.toNat) :
    exec (.wrRegs start qty bc data) s = .next (closeMultiple (regLoop start qty bc data s)) := by
  have hok := (payloadOk_iff _ bc (s.latch start qty)).mpr hp
  exact congrArg _ ((State.withOperands_of_long start qty s (wrRegsBody start qty bc data) h).trans (if_pos hok))

theorem exec_wrRegs_of_bad_payload (start qty : Word) (bc : Byte) (data : List Byte) (s : State) (h : 12 ≤ s.dec.size)
    (hp : ¬(13 + bc.toNat ≤ s.dec.size ∧ bc.toNat = 2 * qty.toNat)) :
    exec (.wrRegs start qty bc data) s = .next ((s.latch start qty).raise .illegalDataValue) := by
  have hbad := mt (payloadOk_iff _ bc (s.latch start qty)).mp hp
  exact congrArg _ ((State.withOperands_of_long start qty s (wrRegsBody start qty bc data) h).trans (if_neg hbad))

/-- A failed payload check: no element is written and L_BC stays (R201). -/
theorem badPayload_answer (start qty : Word) (s : State) (hb : 268 ≤ s.mem.b.length) (he : s.dec.err = false) :
    exceptionAnswer s ((s.latch start qty).raise .illegalDataValue) 0x03 ∧
      storeSame s ((s.latch start qty).raise .illegalDataValue) ∧
      decoderRegs s ((s.latch start qty).raise .illegalDataValue) start qty s.dec.lBc false :=
  ⟨exceptionAnswer_raise_of_b_eq s _ .illegalDataValue hb rfl, storeSame_of_eq rfl rfl rfl rfl, by simp [decoderRegs, he]⟩

/-- The end of a write-multiple (R202, R203): `u` is what its element loop left, with the request still in B. -/
theorem closeMultiple_answer (s u : State) (n : Nat) (start qty : Word) (bc : Byte) (hb : 268 ≤ s.mem.b.length)
    (hu : u.mem.b = s.mem.b) (hregs : decoderRegs s u start qty bc (anyOutOfRange n start.toNat qty.toNat)) :
    ((∀ i < qty.toNat, start.toNat + i < n) →
      acknowledged s (closeMultiple u) ∧ decoderRegs s (closeMultiple u) start qty bc false) ∧
    ((∃ i < qty.toNat, n ≤ start.toNat + i) →
      exceptionAnswer s (closeMultiple u) 0x02 ∧ decoderRegs s (closeMultiple u) start qty bc true) := by
  have ⟨_, _, _, _, _, herr⟩ := hregs
  constructor
  · intro hin
    rw [(anyOutOfRange_eq_false n start.toNat qty.toNat).mpr hin] at hregs herr
    rw [closeMultiple, if_neg (by simp [herr])]
    exact ⟨acknowledged_acknowledge s u (by omega) hu, hregs⟩
  · intro hout
    rw [(anyOutOfRange_eq_true n start.toNat qty.toNat).mpr hout] at hregs herr
    rw [closeMultiple, if_pos herr]
    exact ⟨exceptionAnswer_raise_of_b_eq s u .illegalDataAddress hb hu, hregs⟩

theorem unpackBits_getD (qty : Nat) (data : List Byte) (i : Nat) (h : i < qty) :
    (unpackBits qty data).getD i 0 = bitOf data i := by
  simp [unpackBits, List.getD_eq_getElem?_getD, h]

theorem unpackWords_getD (qty : Nat) (data : List Byte) (i : Nat) (h : i < qty) :
    (unpackWords qty data).getD i 0 = wordOf data i := by
  simp [unpackWords, List.getD_eq_getElem?_getD, h]

/-- R200, R202: every in-range coil of the request holds its bit, and every other coil what it held. -/
theorem read_writeFrom_unpackBits (n start qty : Nat) (data : List Byte) (c : Cells 1) (hw : c.wf n) (a : Nat) :
    (Cells.writeFrom n start (unpackBits qty data) c).read a =
      if start ≤ a ∧ a < start + qty ∧ a < n then bitOf data (a - start) else c.read a := by
  rw [Cells.read_writeFrom _ _ _ hw, show (unpackBits qty data).length = qty by simp [unpackBits]]
  split
  · exact unpackBits_getD qty data _ (by omega)
  · rfl

/-- R210, R202: the same for holding registers. -/
theorem read_writeFrom_unpackWords (n start qty : Nat) (data : List Byte) (c : Cells 16) (hw : c.wf n) (a : Nat) :
    (Cells.writeFrom n start (unpackWords qty data) c).read a =
      if start ≤ a ∧ a < start + qty ∧ a < n then wordOf data (a - start) else c.read a := by
  rw [Cells.read_writeFrom _ _ _ hw, show (unpackWords qty data).length = qty by simp [unpackWords]]
  split
  · exact unpackWords_getD qty data _ (by omega)
  · rfl

end Sys2Proof.Machine

/-- Settles O10: the short check, the payload check, and the element loop before its end. -/
theorem writeCoilsSetsEveryInRangeCoil : Obligations.WriteCoilsSetsEveryInRangeCoil := by
  refine ⟨decodeMultiple_bytes .wrCoils, ?_⟩
  intro start qty bc data s hb he hw
  refine ⟨shortAnswer_of_withOperands _ start qty _ s rfl hb, fun hlong => ?_⟩
  by_cases hp : 13 + bc.toNat ≤ s.dec.size ∧ bc.toNat = ceil8 qty.toNat
  · have hexec := exec_wrCoils_of_payload start qty bc data s hlong hp
    obtain ⟨hdi, hir⟩ := exec_di_ir _ s _ hexec
    obtain ⟨hco, hhr⟩ := closeMultiple_co_hr (coilLoop start qty bc data s)
    obtain ⟨⟨-, hcoils, -, hregs⟩, -, -⟩ := hw
    refine ⟨_, hexec, exec_outsideSame _ s _ hexec, fun hbad => absurd hp hbad, fun _ => ?_⟩
    refine ⟨fun a => ?_, fun a => ?_, ?_, ?_⟩
    · simp only [Memory.readBit, hco]
      exact read_writeFrom_unpackBits _ _ _ data _ hcoils a
    · simp only [Memory.readBit, hdi]
    · intro sp a
      cases sp
      · simp only [Memory.readReg, hir]
      · simp only [Memory.readReg, hhr, coilLoop_hr]
    · exact closeMultiple_answer s (coilLoop start qty bc data s) s.params.nCo start qty bc hb rfl
        (by simp [decoderRegs, coilLoop, he])
  · have hexec := exec_wrCoils_of_bad_payload start qty bc data s hlong hp
    exact ⟨_, hexec, exec_outsideSame _ s _ hexec, fun _ => badPayload_answer start qty s hb he, fun hok => absurd hok hp⟩

/-- Settles O11: as O10, for holding registers. -/
theorem writeRegsStoresEveryInRangeWord : Obligations.WriteRegsStoresEveryInRangeWord := by
  refine ⟨decodeMultiple_bytes .wrRegs, ?_⟩
  intro start qty bc data s hb he hw
  refine ⟨shortAnswer_of_withOperands _ start qty _ s rfl hb, fun hlong => ?_⟩
  by_cases hp : 13 + bc.toNat ≤ s.dec.size ∧ bc.toNat = 2 * qty.toNat
  · have hexec := exec_wrRegs_of_payload start qty bc data s hlong hp
    obtain ⟨hdi, hir⟩ := exec_di_ir _ s _ hexec
    obtain ⟨hco, hhr⟩ := closeMultiple_co_hr (regLoop start qty bc data s)
    obtain ⟨⟨-, hcoils, -, hregs⟩, -, -⟩ := hw
    refine ⟨_, hexec, exec_outsideSame _ s _ hexec, fun hbad => absurd hp hbad, fun _ => ?_⟩
    refine ⟨fun a => ?_, fun a => ?_, ?_, ?_⟩
    · simp only [Memory.readReg, hhr]
      exact read_writeFrom_unpackWords _ _ _ data _ hregs a
    · simp only [Memory.readReg, hir]
    · intro sp a
      cases sp
      · simp only [Memory.readBit, hdi]
      · simp only [Memory.readBit, hco, regLoop_co]
    · exact closeMultiple_answer s (regLoop start qty bc data s) s.params.nHr start qty bc hb rfl
        (by simp [decoderRegs, regLoop, he])
  · have hexec := exec_wrRegs_of_bad_payload start qty bc data s hlong hp
    exact ⟨_, hexec, exec_outsideSame _ s _ hexec, fun _ => badPayload_answer start qty s hb he, fun hok => absurd hok hp⟩

/-- Settles O7, by arithmetic on ceil8. -/
theorem readCeilingAsAQuantity : Obligations.ReadCeilingAsAQuantity := by
  intro qty
  unfold ceil8
  omega

/-! ### Every instruction -/

namespace Sys2Proof.Machine

/-- Just before its end an instruction has drawn no free value. -/
theorem State.onlyDecode_freeIx (s u : State) (h : s.onlyDecode u) : u.freeIx = s.freeIx := by
  rw [State.onlyDecode] at h
  rw [h]

/-- The length field of an exception and of an acknowledgment, as numbers. -/
theorem be16_three : (be16 0x00 0x03).toNat = 3 := rfl

theorem be16_six : (be16 0x00 0x06).toNat = 6 := rfl

end Sys2Proof.Machine

/-- Settles O14, by the three ends of an instruction. -/
theorem everyResponseHasTheHeaderForm : Obligations.EveryResponseHasTheHeaderForm := by
  intro i s t hb h
  have hheader {b : List Byte} (hk : ∀ k < 8, k ≠ 4 → k ≠ 5 → k ≠ 7 → byteAt b k = byteAt s.mem.b k) :
      ∀ k ∈ [0, 1, 2, 3, 6], byteAt b k = byteAt s.mem.b k := by
    simp only [List.forall_mem_cons, List.not_mem_nil, false_implies, implies_true, and_true]
    exact ⟨hk 0 (by decide) (by decide) (by decide) (by decide), hk 1 (by decide) (by decide) (by decide) (by decide),
      hk 2 (by decide) (by decide) (by decide) (by decide), hk 3 (by decide) (by decide) (by decide) (by decide),
      hk 6 (by decide) (by decide) (by decide) (by decide)⟩
  cases exec_endsIn i s t h with
  | raise u code hc ho hl hbytes =>
    have hanswer := exceptionAnswer_raise s u code (by omega) hl (hbytes hb)
    have ⟨hlen, _, h4, h5, _, _, hk⟩ := hanswer
    rw [hlen, h4, h5, be16_three]
    exact ⟨rfl, by decide, by decide, hheader fun k hk8 n4 n5 n7 => hk k (by omega) n4 n5 n7 (by omega),
      .inr ⟨_, hc, hanswer⟩⟩
  | acknowledge u ho hub =>
    obtain ⟨hlen, -, h4, h5, hk⟩ := acknowledged_acknowledge s u (by omega) hub
    rw [hlen, h4, h5, be16_six]
    exact ⟨rfl, by decide, by decide, hheader fun k hk8 n4 n5 _ => hk k (by omega) n4 n5,
      .inl (hk 7 (by decide) (by decide) (by decide))⟩
  | respond u bc hbc ho hl hbytes =>
    have hbyte := u.byteAt_respond (3 + bc) (by omega)
    have hkeep (k : Nat) (hk : k < 8) (n4 : k ≠ 4) (n5 : k ≠ 5) :
        byteAt (u.respond (3 + bc)).mem.b k = byteAt s.mem.b k := by
      rw [hbyte k (by omega), if_neg n4, if_neg n5, hbytes hb k hk]
    rw [hbyte 4 (by omega), hbyte 5 (by omega), if_pos rfl, if_neg (by decide), if_pos rfl, be16_hi8_lo8,
      BitVec.toNat_ofNat, Nat.mod_eq_of_lt (by omega), State.respond_dec_respLen]
    exact ⟨rfl, by omega, by omega, hheader fun k hk n4 n5 _ => hkeep k hk n4 n5,
      .inl (hkeep 7 (by decide) (by decide) (by decide))⟩

/-- Settles O15: every end draws the bytes from RESP_LEN on, and nothing was drawn before it. -/
theorem bytesBeyondTheResponseAreFree : Obligations.BytesBeyondTheResponseAreFree := by
  intro i s t hb h k hk hlt
  rw [exec_b_length i s t h] at hlt
  cases exec_endsIn i s t h with
  | raise u code _ ho hl _ =>
    rw [← s.onlyDecode_freeIx u ho]
    exact State.byteAt_finish_free 9 k _ (by simp; omega) hk (by simpa [hl] using hlt)
  | acknowledge u ho hub =>
    rw [← s.onlyDecode_freeIx u ho]
    exact State.byteAt_finish_free 12 k _ (by simp [hub]; omega) hk (by simpa [hub] using hlt)
  | respond u bc _ ho hl _ =>
    rw [← s.onlyDecode_freeIx u ho]
    exact State.byteAt_finish_free _ k _ (by simp; omega) hk (by simpa [hl] using hlt)

/-- Settles O16: CO moves only in FC5 and FC15, HR only in FC6 and FC16. -/
theorem requestsWriteOnlyTheirOwnSpace : Obligations.RequestsWriteOnlyTheirOwnSpace := by
  intro i s t h
  obtain ⟨hdi, hir⟩ := exec_di_ir i s t h
  obtain ⟨hco, hhr⟩ := exec_co_hr i s t h
  have keepsCo (hi : ∀ c, ¬CoilsWritten s i c) : t.mem.co = s.mem.co := hco.resolve_right (hi _)
  have keepsHr (hi : ∀ c, ¬RegsWritten s i c) : t.mem.hr = s.mem.hr := hhr.resolve_right (hi _)
  refine ⟨hdi, hir, fun hi => ?_, fun hi => keepsHr ?_, fun hi => keepsCo ?_⟩
  · have hcases : isRead i ∨ ∃ fc, i = .illegalFc fc := hi.imp_right fun hl => by simpa [listed] using hl
    constructor
    · apply keepsCo
      rintro c (_ | _) <;> simp [isRead] at hcases
    · apply keepsHr
      rintro c (_ | _) <;> simp [isRead] at hcases
  · rintro c (_ | _) <;> simp at hi
  · rintro c (_ | _) <;> simp at hi

/-- Settles O17, by the three ends of an instruction. -/
theorem everyInstructionCompletesInsideTheDecoder : Obligations.EveryInstructionCompletesInsideTheDecoder := by
  intro i s
  obtain ⟨t, h⟩ := exec_total i s
  exact ⟨t, h, exec_outsideSame i s t h, exec_b_length i s t h⟩

/-- Settles O18: what O9 says is stored is what O6 says is read. -/
theorem writtenRegisterReadsBack : Obligations.WrittenRegisterReadsBack := by
  intro addr val s hb hw hlong haddr
  obtain ⟨-, hwrites⟩ := writeRegStoresTheWordVerbatim
  obtain ⟨-, hwrite⟩ := hwrites addr val s hb hw
  obtain ⟨t, ht, ⟨hparams, -⟩, -, -, hin⟩ := hwrite hlong
  obtain ⟨-, hval, -⟩ := hin haddr
  refine ⟨t, ht, fun u hhr hup hulong hue hub => ?_⟩
  obtain ⟨-, -, hreads⟩ := readRegsAnswersTheWords
  obtain ⟨-, hread⟩ := hreads .hr addr 1 u hub hue
  obtain ⟨v, hv, -, -, -, -, hok⟩ := hread hulong
  have hrange : ∀ i < (1 : Word).toNat, addr.toNat + i < RegSpace.hr.cap u.params := by
    intro i hi
    have hi0 : i = 0 := by simpa using hi
    simpa [hi0, RegSpace.cap, hup, hparams] using haddr
  obtain ⟨⟨hlen, -, -, -, h8, -⟩, -, hdata⟩ := hok (by decide) hrange
  obtain ⟨h9, h10⟩ := hdata 0 (by decide)
  have hword : u.mem.readReg .hr (addr.toNat + 0) = val := by simpa [Memory.readReg, hhr] using hval
  rw [hword] at h9 h10
  exact ⟨v, hv, hlen, h8, h9, h10⟩

end

section
/-! PROOFS. The CRC engine (R120 to R128): the tables, and why the table-driven fold is the bitwise CRC with its bytes
swapped: a shift step is linear over exclusive or, and eight steps push the high byte down unchanged. -/

open Sys2Proof Sys2Proof.Machine Sys2Proof.Claims

namespace Sys2Proof.Machine

/-! ### Eight shift steps -/

theorem shiftStep_xor (a b : Word) : shiftStep (a ^^^ b) = shiftStep a ^^^ shiftStep b := by
  unfold shiftStep
  rw [BitVec.getLsbD_xor, BitVec.ushiftRight_xor_distrib]
  cases a.getLsbD 0 <;> cases b.getLsbD 0
  · rfl
  · exact BitVec.xor_assoc _ _ _
  · simp only [Bool.xor_false, if_true, Bool.false_eq_true, if_false]
    ac_rfl
  · simp only [Bool.xor_true, Bool.not_true, Bool.false_eq_true, if_false, if_true]
    rw [show ∀ x y p : Word, (x ^^^ p) ^^^ (y ^^^ p) = x ^^^ y ^^^ (p ^^^ p) by intros; ac_rfl, BitVec.xor_self,
      BitVec.xor_zero]

theorem shiftEight_xor (a b : Word) : shiftEight (a ^^^ b) = shiftEight a ^^^ shiftEight b := by
  simp only [shiftEight, shiftStep_xor]

/-- Eight steps over a word whose low byte is 0 are eight plain shifts. -/
theorem shiftEight_of_low_zero (h : Byte) : shiftEight (h.setWidth 16 <<< 8) = h.setWidth 16 := by
  revert h
  decide +kernel

/-! ### The two bytes of a word under exclusive or -/

theorem lo8_xor (a b : Word) : lo8 (a ^^^ b) = lo8 a ^^^ lo8 b := by
  simp only [lo8, BitVec.extractLsb'_xor]

theorem hi8_xor (a b : Word) : hi8 (a ^^^ b) = hi8 a ^^^ hi8 b := by
  simp only [hi8, BitVec.extractLsb'_xor]

theorem lo8_setWidth (x : Byte) : lo8 (x.setWidth 16) = x := by
  apply BitVec.eq_of_toNat_eq
  have hx := x.isLt
  rw [lo8_toNat, BitVec.toNat_setWidth]
  omega

theorem hi8_setWidth (x : Byte) : hi8 (x.setWidth 16) = 0#8 := by
  apply BitVec.eq_of_toNat_eq
  have hx := x.isLt
  rw [hi8_toNat, BitVec.toNat_setWidth]
  simp only [BitVec.toNat_ofNat]
  omega

/-- A word is its high byte above its low byte. -/
theorem word_eq_hi_xor_lo (c : Word) : c = (hi8 c).setWidth 16 <<< 8 ^^^ (lo8 c).setWidth 16 := by
  ext i hi
  by_cases h : i < 8
  · simp [hi8, lo8, h, BitVec.getLsbD_eq_getElem hi]
  · simp [hi8, lo8, h, show 8 + (i - 8) = i by omega, hi, show i - 8 < 8 by omega]

/-- The canonical fold of one byte, by the two bytes of the running CRC. -/
theorem shiftEight_fold (c : Word) (x : Byte) :
    shiftEight (c ^^^ x.setWidth 16) = (hi8 c).setWidth 16 ^^^ shiftEight ((lo8 c ^^^ x).setWidth 16) := by
  have hc : c ^^^ x.setWidth 16 = (hi8 c).setWidth 16 <<< 8 ^^^ (lo8 c ^^^ x).setWidth 16 := by
    rw [BitVec.setWidth_xor, ← BitVec.xor_assoc, ← word_eq_hi_xor_lo]
  rw [hc, shiftEight_xor, shiftEight_of_low_zero]

end Sys2Proof.Machine

/-- Settles O19, entry by entry. -/
theorem crcTablesAreTheShiftSteps : Obligations.CrcTablesAreTheShiftSteps := by
  unfold Obligations.CrcTablesAreTheShiftSteps
  decide +kernel

namespace Sys2Proof.Machine

/-! ### The table-driven fold -/

/-- The tables at the index a fold computes (R122, R125). -/
theorem tables_at (x : Byte) : byteAt tblHi x.toNat = lo8 (shiftEight (x.setWidth 16)) ∧
    byteAt tblLo x.toNat = hi8 (shiftEight (x.setWidth 16)) := by
  rw [← BitVec.ofNat_toNat 16 x]
  exact crcTablesAreTheShiftSteps x.toFin

/-- The registers that hold a canonical CRC with its bytes swapped. -/
def CrcRegs.ofCanon (c : Word) : CrcRegs := { hi := lo8 c, lo := hi8 c }

/-- R126: one fold follows the canonical CRC. -/
theorem CrcRegs.fold_ofCanon (c : Word) (x : Byte) :
    (CrcRegs.ofCanon c).fold x = CrcRegs.ofCanon (shiftEight (c ^^^ x.setWidth 16)) := by
  obtain ⟨hhi, hlo⟩ := tables_at (lo8 c ^^^ x)
  rw [shiftEight_fold]
  simp only [CrcRegs.fold, CrcRegs.ofCanon, hhi, hlo, lo8_xor, hi8_xor, lo8_setWidth, hi8_setWidth, BitVec.zero_xor]

theorem CrcRegs.foldl_ofCanon (bytes : List Byte) (c : Word) :
    bytes.foldl CrcRegs.fold (CrcRegs.ofCanon c) =
      CrcRegs.ofCanon (bytes.foldl (fun c x => shiftEight (c ^^^ x.setWidth 16)) c) := by
  induction bytes generalizing c with
  | nil => rfl
  | cons x xs ih => rw [List.foldl_cons, CrcRegs.fold_ofCanon, ih, List.foldl_cons]

theorem crcRegsOf_eq (a : Byte) (p : List Byte) : crcRegsOf a p = CrcRegs.ofCanon (canon (a :: p)) :=
  CrcRegs.foldl_ofCanon (a :: p) 0xFFFF

/-! ### The residue -/

/-- Folding the high register into itself moves the low one up. -/
theorem CrcRegs.fold_hi (c : CrcRegs) : c.fold c.hi = { hi := c.lo, lo := 0#8 } := by
  have hhi : byteAt tblHi 0 = 0#8 := rfl
  have hlo : byteAt tblLo 0 = 0#8 := rfl
  simp only [CrcRegs.fold, BitVec.xor_self, BitVec.toNat_zero, hhi, hlo, BitVec.xor_zero]

theorem CrcRegs.fold_result (c : CrcRegs) : (c.fold c.hi).fold c.lo = { hi := 0x00, lo := 0x00 } := by
  rw [CrcRegs.fold_hi]
  exact CrcRegs.fold_hi { hi := c.lo, lo := 0#8 }

end Sys2Proof.Machine

/-- Settles O20: the fold over the registers follows the canonical fold byte by byte, from CRC_INIT on. -/
theorem crcIsTheByteSwappedCanonicalCrc : Obligations.CrcIsTheByteSwappedCanonicalCrc := by
  intro a p
  rw [crc16, crcRegsOf_eq]
  rfl

/-- Settles O21: the two CRC bytes are the two registers, and each fold of a register into itself clears it. -/
theorem frameWithItsCrcFoldsToZero : Obligations.FrameWithItsCrcFoldsToZero := by
  intro a p
  have happend : crcRegsOf a (p ++ [hi8 (crc16 a p), lo8 (crc16 a p)]) =
      ((crcRegsOf a p).fold (hi8 (crc16 a p))).fold (lo8 (crc16 a p)) := by
    simp [crcRegsOf]
  rw [happend, crc16, CrcRegs.result, hi8_be16, lo8_be16, CrcRegs.fold_result]

end

section
/-! PROOFS. TCP_PROCESS and the step (R140 to R142). The rules of a step in which the host acts stand first; then what the
decoder reads from a buffer whose bytes beyond SIZE are free. -/

open Sys2Proof Sys2Proof.Machine Sys2Proof.Claims

namespace Sys2Proof.Machine

/-! ### A step in which the host acts (R41; log 10) -/

theorem step_of_issues {s : State} {op : HostOp} (h : issues s op) : step s = hostOp op (popped s) := by
  obtain ⟨q, rest, hq, rfl, ha, ho⟩ := h
  have hdue : q.due s = true := by simpa [HostReq.due, ha] using ho
  rw [step_of_due s q rest hq hdue, popped, hq, List.tail_cons]

/-- Only one action is issued at a time. -/
theorem issues_iff_of_issues {s : State} {op : HostOp} (h : issues s op) (op' : HostOp) : issues s op' ↔ op' = op := by
  constructor
  · rintro ⟨q', rest', hq', rfl, -, -⟩
    obtain ⟨q, rest, hq, rfl, -, -⟩ := h
    rw [hq] at hq'
    cases hq'
    rfl
  · rintro rfl
    exact h

/-- A step is a host action or, with the host silent, the sequencer's. -/
theorem step_kind (s : State) :
    (∃ op, issues s op ∧ step s = hostOp op (popped s)) ∨ (hostSilent s ∧ step s = sequence s) := by
  by_cases h : ∃ op, issues s op
  · obtain ⟨op, hop⟩ := h
    exact .inl ⟨op, hop, step_of_issues hop⟩
  · have hs : hostSilent s := not_exists.mp h
    exact .inr ⟨hs, step_of_hostSilent s hs⟩

/-! ### The sequencer, by PHASE (R237) -/

theorem sequence_of_idle {s : State} (h : s.phase = .idle) : sequence s = .next s.tick := by
  simp only [sequence, h]

theorem sequence_of_accumulating {s : State} (h : s.phase = .accumulating) : sequence s = .next (accumulate s) := by
  simp only [sequence, h]

theorem sequence_of_frameReady {s : State} (h : s.phase = .frameReady) : sequence s = .next (validate s) := by
  simp only [sequence, h]

theorem sequence_of_dispatched {s : State} (h : s.phase = .dispatched) : sequence s = dispatchFrame s := by
  simp only [sequence, h]

theorem sequence_of_reply {s : State} (h : s.phase = .reply) : sequence s = .next (transmit s) := by
  simp only [sequence, h]

theorem sequence_of_suppressed {s : State} (h : s.phase = .suppressed) : sequence s = .next (endCycle s) := by
  simp only [sequence, h]

theorem sequence_of_tcpBusy {s : State} (h : s.phase = .tcpBusy) : sequence s = tcpRun s := by
  simp only [sequence, h]

/-! ### TCP_PROCESS -/

theorem onlyIdle_of_idle (r : Refusal) (s : State) (f : Result) (h : s.phase = .idle) : onlyIdle r s f = f := if_pos h

theorem onlyIdle_of_busy (r : Refusal) (s : State) (f : Result) (h : s.phase ≠ .idle) : onlyIdle r s f = .refused r :=
  if_neg h

theorem tcpProcess_of_le (size : Nat) (s : State) (hi : s.phase = .idle) (h : size ≤ s.params.bufCap) :
    tcpProcess size s = tcpRun (tcpEnter size s) :=
  (onlyIdle_of_idle _ s _ hi).trans (if_pos h)

theorem step_of_tcpProcess {s : State} {size : Nat} (hi : s.phase = .idle) (h : issues s (.tcpProcess size))
    (hs : size ≤ s.params.bufCap) : step s = tcpRun (tcpEnter size (popped s)) :=
  (step_of_issues h).trans (tcpProcess_of_le size (popped s) hi hs)

/-- The state on which the decoder runs the instruction of a TCP request: SIZE set, ERR clear, the bytes beyond SIZE
redrawn and L_FC latched (R140 to R142). -/
def tcpEntry (size : Nat) (s : State) : State :=
  ((tcpEnter size s).redrawB size).latchFc (byteAt ((tcpEnter size s).redrawB size).mem.b 7)

/-- The close of TCP_PROCESS: PHASE is Idle again and RESP_LEN is the answer (R140). -/
def tcpClose (t : State) : State :=
  { t with phase := .idle, env := { t.env with portOut := .respLen t.dec.respLen } }

theorem tcpRun_eq (s : State) : tcpRun s = onNext (decodeRequest s) tcpClose := rfl

theorem tcpRun_tcpEnter (size : Nat) (s : State) (i : Instr) (h : 8 ≤ size)
    (hd : decode (((tcpEnter size s).redrawB size).mem.b.drop 7) = .ok i) :
    tcpRun (tcpEnter size s) = onNext (exec i (tcpEntry size s)) tcpClose := by
  rw [tcpRun_eq, decodeRequest_run (tcpEnter size s) i h hd]
  rfl

/-! ### What a buffer holds -/

/-- Whatever begins with the encoding of a request decodes to it. -/
theorem decode_of_prefix {i : Instr} {bs : List Byte} (hwf : i.wf = true) (h : encode i <+: bs) : decode bs = .ok i := by
  obtain ⟨rest, rfl⟩ := h
  exact decode_encode_append i rest hwf

/-- A request wholly inside SIZE stands before the redrawn bytes. -/
theorem decode_of_holdsRequest (b cs : List Byte) (size : Nat) (i : Instr) (hwf : i.wf = true)
    (hlen : 7 + (encode i).length ≤ size) (hsize : size ≤ b.length) (h : holdsRequest b i) :
    decode ((b.take size ++ cs).drop 7) = .ok i := by
  apply decode_of_prefix hwf
  have hinside : (encode i).length ≤ ((b.take size).drop 7).length := by simp; omega
  rw [List.prefix_iff_eq_take, List.drop_append_of_le_length (by simp; omega), List.take_append_of_le_length hinside,
    List.drop_take, List.take_take, Nat.min_eq_left (by omega), h]

/-- A redrawn byte of B is a free value (R64). -/
theorem byteAt_redrawB_free (k n : Nat) (s : State) (hk : k ≤ n) (hn : n < s.mem.b.length) :
    byteAt (s.redrawB k).mem.b n = Config.freeByte (s.freeIx + (n - k)) :=
  (State.byteAt_finish_free k n s (by omega) hk hn).1

/-- Setting bit 7 of the function code (R145) is visible in bit 7. -/
theorem getLsbD_or_0x80 (x : Byte) : (x ||| 0x80).getLsbD 7 = true := by
  simp

end Sys2Proof.Machine

/-- Settles O22: the step is TCP_PROCESS, and its decode runs the instruction that B holds. -/
theorem tcpStepRunsTheDecodedInstruction : Obligations.TcpStepRunsTheDecodedInstruction := by
  intro s size i hidle hissues h8 hsize hd
  rw [step_of_tcpProcess hidle hissues hsize, tcpRun_tcpEnter size (popped s) i h8 hd]
  rfl

/-- Settles O23: the request inside SIZE is what decodes, and the entry of the decode changes none of its bytes. -/
theorem tcpStepRunsTheRequestInTheBuffer : Obligations.TcpStepRunsTheRequestInTheBuffer := by
  intro s size i hidle hissues hsize hb hwf hlen hholds
  have hpos : 0 < (encode i).length := List.length_pos_iff.mpr (encode_ne_nil i)
  have hd : decode (((tcpEnter size (popped s)).redrawB size).mem.b.drop 7) = .ok i :=
    decode_of_holdsRequest s.mem.b _ size i hwf hlen (by omega) hholds
  have hbytes (k : Nat) (hk : k < size) : byteAt (tcpEntry size (popped s)).mem.b k = byteAt s.mem.b k :=
    byteAt_redraw s.mem.b _ size k hk (by omega)
  obtain ⟨t, ht⟩ := exec_total i (tcpEntry size (popped s))
  refine ⟨tcpEntry size (popped s), t, ht, rfl, rfl, hbytes 7 (by omega), hbytes,
    State.redrawB_length size (tcpEnter size (popped s)), rfl, rfl, rfl, rfl, rfl, ?_, rfl⟩
  rw [step_of_tcpProcess hidle hissues hsize, tcpRun_tcpEnter size (popped s) i (by omega) hd, ht]
  rfl

/-- Settles O24: the decode raises IllegalFunction over the redrawn buffer, whose byte 7 is free. -/
theorem requestWithoutFunctionCodeAnswersIllegalFunction :
    Obligations.RequestWithoutFunctionCodeAnswersIllegalFunction := by
  intro s size hidle hissues h8 hcap hb
  have hstep : step s =
      .next (tcpClose (((tcpEnter size (popped s)).redrawB size).raise .illegalFunction)) := by
    rw [step_of_tcpProcess hidle hissues (by omega), tcpRun_eq, decodeRequest_short (tcpEnter size (popped s)) h8]
    rfl
  have hbuf : 268 ≤ (tcpEnter size (popped s)).mem.b.length := Nat.le_trans hcap (Nat.le_of_eq hb.symm)
  have hbyte := State.byteAt_raise .illegalFunction ((tcpEnter size (popped s)).redrawB size)
    (by rw [State.redrawB_length]; omega)
  have hfree : byteAt ((tcpEnter size (popped s)).redrawB size).mem.b 7 = Config.freeByte (s.freeIx + (7 - size)) :=
    byteAt_redrawB_free size 7 (tcpEnter size (popped s)) (by omega) (by omega)
  refine ⟨_, hstep, rfl, rfl, rfl, hbyte 4 (by decide), hbyte 5 (by decide), ?_, ⟨s.freeIx + (7 - size), by omega, ?_⟩,
    hbyte 8 (by decide), ?_, storeSame_of_eq rfl rfl rfl rfl⟩
  · exact (congrArg (·.getLsbD 7) (hbyte 7 (by decide))).trans (getLsbD_or_0x80 _)
  · exact (hbyte 7 (by decide)).trans (congrArg (· ||| 0x80) hfree)
  · intro k hk h4 h5 h7
    refine (hbyte k (by omega)).trans ?_
    rw [if_neg h4, if_neg h5, if_neg h7, if_neg (by omega)]
    exact byteAt_redraw s.mem.b _ size k hk (by omega)

end

section
/-! PROOFS. The host's ports (R41, R45, R47, R303) and reset (R330): when each action is refused, and what it does
otherwise. -/

open Sys2Proof Sys2Proof.Machine Sys2Proof.Claims

namespace Sys2Proof.Machine

/-! ### Refusals -/

/-- R303: while PHASE is not Idle every host action but reset and a fill is refused. -/
theorem hostOp_of_busy (s : State) (op : HostOp) (h : s.phase ≠ .idle) (hr : op ≠ .reset)
    (hf : ∀ bytes, op ≠ .fillBuffer bytes) :
    hostOp op s = .refused .commandWhileBusy ∨ hostOp op s = .refused .storeWhileBusy ∨
      hostOp op s = .refused .configWhileBusy := by
  cases op with
  | fillBuffer bytes => exact absurd rfl (hf bytes)
  | tcpProcess size => exact .inl (onlyIdle_of_busy _ s _ h)
  | rtuCycle => exact .inl (onlyIdle_of_busy _ s _ h)
  | readBit sp a => exact .inr (.inl (onlyIdle_of_busy _ s _ h))
  | writeBit sp a v => exact .inr (.inl (onlyIdle_of_busy _ s _ h))
  | readReg sp a => exact .inr (.inl (onlyIdle_of_busy _ s _ h))
  | writeReg sp a v => exact .inr (.inl (onlyIdle_of_busy _ s _ h))
  | readConfig r => exact .inr (.inr (onlyIdle_of_busy _ s _ h))
  | writeSlaveId v => exact .inr (.inr (onlyIdle_of_busy _ s _ h))
  | writeBaud v => exact .inr (.inr (onlyIdle_of_busy _ s _ h))
  | writeGuard v => exact .inr (.inr (onlyIdle_of_busy _ s _ h))
  | reset => exact absurd rfl hr

/-- R147: a decode is never refused. -/
theorem decodeRequest_ne_refused (s : State) (r : Refusal) : decodeRequest s ≠ .refused r := by
  obtain h | h := Nat.lt_or_ge s.dec.size 8
  · rw [decodeRequest_short s h]
    nofun
  · cases hd : decode ((s.redrawB s.dec.size).mem.b.drop 7) with
    | error e => simp only [decodeRequest, if_neg (Nat.not_lt.mpr h), hd, ne_eq, reduceCtorEq, not_false_eq_true]
    | ok i =>
      rw [decodeRequest_run s i h hd]
      obtain ⟨t, ht⟩ := exec_total i ((s.redrawB s.dec.size).latchFc (byteAt (s.redrawB s.dec.size).mem.b 7))
      rw [ht]
      nofun

theorem onNext_eq_refused {o : Result} {f : State → State} {r : Refusal} (h : onNext o f = .refused r) :
    o = .refused r := by
  cases o with
  | next u => cases h
  | fault e => cases h
  | refused e => exact h

theorem tcpRun_ne_refused (s : State) (r : Refusal) : tcpRun s ≠ .refused r :=
  fun h => decodeRequest_ne_refused s r (onNext_eq_refused h)

section Idle

variable (s t : State) (r : Refusal) (hi : s.phase = .idle)

include hi

theorem tcpProcess_eq_refused_iff (size : Nat) :
    tcpProcess size s = .refused r ↔ r = .sizeOverBuffer ∧ s.params.bufCap < size := by
  rw [tcpProcess, onlyIdle_of_idle _ s _ hi]
  split
  · next h => simp [tcpRun_ne_refused, Nat.not_lt.mpr h]
  · next h => simp [Nat.lt_of_not_le h, eq_comm]

theorem rtuCycle_eq_refused_iff :
    rtuCycle s = .refused r ↔ (r = .cycleUnconfigured ∧ configured s.cfg = false) ∨
      (r = .cycleBaudZero ∧ configured s.cfg = true ∧ s.cfg.baud = 0#32) := by
  rw [rtuCycle, onlyIdle_of_idle _ s _ hi]
  cases hc : configured s.cfg
  · simpa using eq_comm
  · by_cases hb : s.cfg.baud = 0#32
    · simpa [hb] using eq_comm
    · simp [hb]

theorem storeAccess_eq_refused_iff (n a : Nat) :
    storeAccess n a s t = .refused r ↔ r = .storeOutOfRange ∧ n ≤ a := by
  rw [storeAccess, onlyIdle_of_idle _ s _ hi]
  by_cases h : a < n
  · simp [inRange, h]
  · simp [inRange, h, Nat.le_of_not_lt h, eq_comm]

theorem configAccess_ne_refused : configAccess s t ≠ .refused r := by
  rw [configAccess, onlyIdle_of_idle _ s _ hi]
  nofun

end Idle

theorem fillBuffer_eq_refused_iff (bytes : List Byte) (s : State) (r : Refusal) :
    fillBuffer bytes s = .refused r ↔ r = .fillOverBuffer ∧ s.params.bufCap < bytes.length := by
  unfold fillBuffer
  split
  · next h => simp [Nat.not_lt.mpr h]
  · next h => simp [Nat.lt_of_not_le h, eq_comm]

/-! ### What the ports do while Idle -/

theorem storeAccess_of_in_range (n a : Nat) (s t : State) (hi : s.phase = .idle) (ha : a < n) :
    storeAccess n a s t = .next t :=
  (onlyIdle_of_idle _ s _ hi).trans (if_pos ((inRange_iff n a).mpr ha))

theorem configAccess_of_idle (s t : State) (hi : s.phase = .idle) : configAccess s t = .next t :=
  onlyIdle_of_idle _ s _ hi

theorem fillBuffer_of_le (bytes : List Byte) (s : State) (h : bytes.length ≤ s.params.bufCap) :
    fillBuffer bytes s = .next (s.putB 0 bytes) := if_pos h

theorem Memory.writeBit_buffers (m : Memory) (sp : BitSpace) (a : Nat) (v : BitVec 1) :
    (m.writeBit sp a v).b = m.b ∧ (m.writeBit sp a v).frame = m.frame := by
  cases sp <;> exact ⟨rfl, rfl⟩

theorem Memory.writeReg_buffers (m : Memory) (sp : RegSpace) (a : Nat) (v : Word) :
    (m.writeReg sp a v).b = m.b ∧ (m.writeReg sp a v).frame = m.frame := by
  cases sp <;> exact ⟨rfl, rfl⟩

/-- R35: with nothing listed every element reads 0. -/
theorem State.resetWith_reads_zero (p : Params) :
    (∀ sp a, (State.resetWith p).mem.readBit sp a = 0) ∧ ∀ sp a, (State.resetWith p).mem.readReg sp a = 0 := by
  constructor
  · intro sp a
    cases sp <;> rfl
  · intro sp a
    cases sp <;> rfl

/-- A reset leaves the store of the reset state (R330). -/
theorem hostReset_reads (s : State) :
    (∀ sp a, (hostReset s).mem.readBit sp a = (State.resetWith s.params).mem.readBit sp a) ∧
      ∀ sp a, (hostReset s).mem.readReg sp a = (State.resetWith s.params).mem.readReg sp a := by
  constructor
  · intro sp a
    cases sp <;> rfl
  · intro sp a
    cases sp <;> rfl

end Sys2Proof.Machine

/-- Settles O47: the step is the host's action, and its port is open only while Idle. -/
theorem busyMachineRefusesTheHost : Obligations.BusyMachineRefusesTheHost := by
  intro s op hbusy hissues hreset hfill
  rw [step_of_issues hissues]
  exact hostOp_of_busy (popped s) op hbusy hreset hfill

/-- Settles O48: an Idle sequencer only ticks, and each action has its own ground of refusal. -/
theorem idleMachineRefusesOnlyTheListedActions : Obligations.IdleMachineRefusesOnlyTheListedActions := by
  intro s r hidle
  obtain ⟨op, hop, hstep⟩ | ⟨hs, hstep⟩ := step_kind s
  · rw [hstep]
    have hi : (popped s).phase = .idle := hidle
    simp only [issues_iff_of_issues hop]
    cases op with
    | fillBuffer bytes => simp [hostOp, fillBuffer_eq_refused_iff]
    | tcpProcess size => simp [hostOp, tcpProcess_eq_refused_iff _ _ hi]
    | rtuCycle => simp [hostOp, rtuCycle_eq_refused_iff _ _ hi]
    | readBit sp a => simp [hostOp, storeAccess_eq_refused_iff _ _ _ hi]
    | writeBit sp a v => simp [hostOp, storeAccess_eq_refused_iff _ _ _ hi]
    | readReg sp a => simp [hostOp, storeAccess_eq_refused_iff _ _ _ hi]
    | writeReg sp a v => simp [hostOp, storeAccess_eq_refused_iff _ _ _ hi]
    | readConfig q => simp [hostOp, configAccess_ne_refused _ _ _ hi]
    | writeSlaveId v => simp [hostOp, configAccess_ne_refused _ _ _ hi]
    | writeBaud v => simp [hostOp, configAccess_ne_refused _ _ _ hi]
    | writeGuard v => simp [hostOp, configAccess_ne_refused _ _ _ hi]
    | reset => simp [hostOp]
  · rw [hstep]
    have hnot (op : HostOp) : ¬issues s op := hs op
    rw [sequence_of_idle hidle]
    simp only [hnot, reduceCtorEq, false_and, and_false, exists_false, or_self]

/-- Settles O49: a fill is one write of consecutive bytes from offset 0. -/
theorem fillWritesTheBytesFromOffsetZero : Obligations.FillWritesTheBytesFromOffsetZero := by
  intro s bytes hissues hb
  rw [step_of_issues hissues]
  constructor
  · intro hle
    refine ⟨putBytes 0 bytes s.mem.b, fillBuffer_of_le bytes (popped s) hle, putBytes_length 0 bytes s.mem.b, ?_, ?_⟩
    · exact putBytes_take bytes s.mem.b (by omega)
    · exact putBytes_drop bytes s.mem.b (by omega)
  · intro hlt
    exact (fillBuffer_eq_refused_iff bytes (popped s) _).mpr ⟨rfl, hlt⟩

/-- Settles O50, by the laws of one read and one write of the store. -/
theorem storePortReadsAndWritesEveryElement : Obligations.StorePortReadsAndWritesEveryElement := by
  intro s hidle hw
  have hother {α : Type} {sp sp' : α} {a a' : Nat} (h : (sp', a') ≠ (sp, a)) : sp' ≠ sp ∨ a' ≠ a := by
    simpa [← not_and_or] using h
  refine ⟨fun sp a h ha => ?_, fun sp a h ha => ?_, fun sp a v h ha => ?_, fun sp a v h ha => ?_⟩
  · exact (step_of_issues h).trans (storeAccess_of_in_range _ a (popped s) _ hidle ha)
  · exact (step_of_issues h).trans (storeAccess_of_in_range _ a (popped s) _ hidle ha)
  · obtain ⟨hb, hf⟩ := s.mem.writeBit_buffers sp a v
    exact ⟨_, (step_of_issues h).trans (storeAccess_of_in_range _ a (popped s) _ hidle ha), rfl, hb, hf,
      s.mem.readBit_writeBit_same s.params sp a v hw,
      fun sp' a' hne => s.mem.readBit_writeBit_other sp sp' a a' v (hother hne), s.mem.readReg_writeBit sp a v⟩
  · obtain ⟨hb, hf⟩ := s.mem.writeReg_buffers sp a v
    exact ⟨_, (step_of_issues h).trans (storeAccess_of_in_range _ a (popped s) _ hidle ha), rfl, hb, hf,
      s.mem.readReg_writeReg_same s.params sp a v hw,
      fun sp' a' hne => s.mem.readReg_writeReg_other sp sp' a a' v (hother hne), s.mem.readBit_writeReg sp a v⟩

/-- Settles O51: an open configuration port answers at once. -/
theorem configPortReadsAndWritesItsRegisters : Obligations.ConfigPortReadsAndWritesItsRegisters := by
  intro s hidle
  refine ⟨fun v h => ?_, fun v h => ?_, fun v h => ?_, fun r h => ?_⟩
  · exact (step_of_issues h).trans (configAccess_of_idle (popped s) _ hidle)
  · exact (step_of_issues h).trans (configAccess_of_idle (popped s) _ hidle)
  · exact (step_of_issues h).trans (configAccess_of_idle (popped s) _ hidle)
  · refine (step_of_issues h).trans ((configAccess_of_idle (popped s) _ hidle).trans ?_)
    cases r <;> rfl

/-- Settles O53, field by field. -/
theorem resetStateHoldsTheResetValues : Obligations.ResetStateHoldsTheResetValues := by
  intro p
  obtain ⟨hbit, hreg⟩ := State.resetWith_reads_zero p
  exact ⟨rfl, rfl, rfl, rfl, rfl, rfl, rfl, rfl, rfl, rfl, rfl, rfl, hbit, hreg⟩

/-- Settles O52: a reset takes every named value from the reset state. -/
theorem resetAtAnyTimeGivesTheResetValues : Obligations.ResetAtAnyTimeGivesTheResetValues := by
  intro s hissues
  obtain ⟨hbit, hreg⟩ := State.resetWith_reads_zero s.params
  obtain ⟨hbit', hreg'⟩ := hostReset_reads (popped s)
  exact ⟨hostReset (popped s), step_of_issues hissues, rfl, rfl, rfl, rfl, rfl, rfl, rfl, rfl, rfl, rfl, rfl, rfl, rfl,
    rfl, fun sp a => (hbit' sp a).trans (hbit sp a), fun sp a => (hreg' sp a).trans (hreg sp a)⟩

end

section
/-! PROOFS. Timing (R260 to R263): the two delays, and a wait as a run of ticks. -/

open Sys2Proof Sys2Proof.Machine Sys2Proof.Claims

namespace Sys2Proof.Machine

/-! ### T1.5 and T3.5 -/

theorem t15Of_toNat (baud : Tick) (h : baud ≠ 0#32) :
    (t15Of baud).toNat = if 19200 < baud.toNat then 750 else 16500000 / baud.toNat := by
  rw [t15Of, if_neg h]
  split
  · rfl
  · have hle : 16500000 / baud.toNat ≤ 16500000 := Nat.div_le_self _ _
    rw [BitVec.toNat_ofNat, Nat.mod_eq_of_lt (by omega)]

/-- R260: T1.5 lies between 750 and 16500000 microseconds. -/
theorem t15Of_bounds (baud : Tick) (h : baud ≠ 0#32) :
    750 ≤ (t15Of baud).toNat ∧ (t15Of baud).toNat ≤ 16500000 := by
  rw [t15Of_toNat baud h]
  split
  · decide
  · next hslow =>
    have hpos : 0 < baud.toNat := Nat.pos_of_ne_zero fun h0 => h (BitVec.eq_of_toNat_eq h0)
    have hge : 16500000 / 19200 ≤ 16500000 / baud.toNat := Nat.div_le_div_left (Nat.le_of_not_lt hslow) hpos
    exact ⟨Nat.le_trans (by decide) hge, Nat.div_le_self _ _⟩

/-! ### Waits (R263) -/

/-- The places in which GAP_TIMER is waited for. -/
def State.waits (s : State) : Prop :=
  s.phase = .accumulating ∨ (s.phase = .reply ∧ s.tx.txph ∈ [TxPhase.guard, .preDelay, .postDelay])

theorem whileWaiting_of_running (next : State → State) (s : State) (h : s.gapTimer ≠ 0#32) :
    whileWaiting next s = s.tick := if_neg h

theorem whileWaiting_of_done (next : State → State) (s : State) (h : s.gapTimer = 0#32) :
    whileWaiting next s = next s := if_pos h

theorem accumulate_of_running (s : State) (h : s.gapTimer ≠ 0#32) : accumulate s = s.tick := if_neg h

/-- While GAP_TIMER runs, a waiting machine only ticks. -/
theorem step_of_waits (s : State) (hs : hostSilent s) (hw : s.waits) (hg : s.gapTimer ≠ 0#32) :
    step s = .next s.tick := by
  rw [step_of_hostSilent s hs]
  obtain hph | ⟨hph, htx⟩ := hw
  · rw [sequence_of_accumulating hph, accumulate_of_running s hg]
  · rw [sequence_of_reply hph, transmit]
    simp only [List.mem_cons, List.not_mem_nil, or_false] at htx
    obtain htx | htx | htx := htx
    · simp only [htx, whileWaiting_of_running _ s hg]
    · simp only [htx, whileWaiting_of_running _ s hg]
    · simp only [htx, whileWaiting_of_running _ s hg]

theorem hostSilent_of_host_nil {s : State} (h : s.env.host = []) : hostSilent s := by
  rintro op ⟨q, rest, hq, -⟩
  rw [h] at hq
  cases hq

theorem Env.tick_host_nil {e : Env} (h : e.host = []) : e.tick.host = [] := by
  rw [e.tick_frame.1, h]
  rfl

/-- A wait is as many ticks as GAP_TIMER says, in which only the timer and the outside world move. -/
theorem run_wait (n : Nat) (s : State) (hn : s.gapTimer.toNat = n) (hh : s.env.host = []) (hw : s.waits) :
    Sys2Proof.core.run n s = .next { s with gapTimer := 0#32, env := Env.tick^[n] s.env } := by
  induction n generalizing s with
  | zero =>
    have hg : s.gapTimer = 0#32 := BitVec.eq_of_toNat_eq hn
    rw [← hg]
    rfl
  | succ n ih =>
    have hg : s.gapTimer ≠ 0#32 := fun h0 => by simp [h0] at hn
    have hdown : s.tick.gapTimer.toNat = n := by
      rw [State.tick_gapTimer, if_neg hg, BitVec.toNat_sub_of_le (by simp [BitVec.le_def]; omega), hn]
      rfl
    rw [run_succ n s s.tick (step_of_waits s (hostSilent_of_host_nil hh) hw hg),
      ih s.tick hdown (Env.tick_host_nil hh) hw]
    rfl

/-! ### The outside world over several ticks -/

theorem Env.iterate_tick_host (n : Nat) (e : Env) (h : e.host = []) : (Env.tick^[n] e).host = [] := by
  induction n generalizing e with
  | zero => exact h
  | succ n ih => exact ih e.tick (Env.tick_host_nil h)

/-- No byte handed over is lost. -/
theorem Env.iterate_tick_bytes (n : Nat) (e : Env) :
    (Env.tick^[n] e).sent ++ (Env.tick^[n] e).inFlight.map (·.byte) = e.sent ++ e.inFlight.map (·.byte) := by
  induction n generalizing e with
  | zero => rfl
  | succ n ih => exact (ih e.tick).trans e.tick_bytes

theorem Env.tick_rxFifo (e : Env) : e.tick.rxFifo = (tickLine e.line e.rxFifo).2 := rfl

/-- A quiet line delivers nothing. -/
theorem Env.iterate_tick_rxFifo (n : Nat) (e : Env) (h : e.line = []) : (Env.tick^[n] e).rxFifo = e.rxFifo := by
  induction n generalizing e with
  | zero => rfl
  | succ n ih =>
    have hfifo : e.tick.rxFifo = e.rxFifo := by
      rw [Env.tick_rxFifo, h]
      rfl
    have hline : e.tick.line = [] := by
      simp only [Env.tick, Env.settle, h, tickLine]
    exact (ih e.tick hline).trans hfifo

end Sys2Proof.Machine

/-- Settles O37: both delays stay far below 32 bits. -/
theorem timingFollowsTheBaudRate : Obligations.TimingFollowsTheBaudRate := by
  intro baud h
  obtain ⟨hlow, hhigh⟩ := t15Of_bounds baud h
  refine ⟨t15Of_toNat baud h, ?_, hlow⟩
  rw [t35Of, BitVec.toNat_ofNat, Nat.mod_eq_of_lt (by omega)]

/-- Settles O38, by induction on the ticks. -/
theorem waitLastsExactlyItsTicks : Obligations.WaitLastsExactlyItsTicks := by
  intro s hh hw
  exact ⟨Env.tick^[s.gapTimer.toNat] s.env, run_wait _ s rfl hh hw, Env.iterate_tick_host _ s.env hh,
    Env.iterate_tick_bytes _ s.env⟩

end

section
/-! PROOFS. The RTU engine (R220 to R238): the frame detector and its read-out, validation, and the dispatch to the default
and to a replacement PDU handler. -/

open Sys2Proof Sys2Proof.Machine Sys2Proof.Claims

namespace Sys2Proof.Machine

/-! ### What the invariant says of the buffers and of PHASE -/

theorem State.Inv.mem_wf {s : State} (hinv : s.Inv) : s.mem.wf s.params := by
  obtain ⟨-, hmem, -⟩ := hinv
  exact hmem

theorem State.Inv.bufCap_ge {s : State} (hinv : s.Inv) : 268 ≤ s.params.bufCap := by
  obtain ⟨⟨-, hcap, -⟩, -⟩ := hinv
  exact hcap

theorem State.Inv.b_length {s : State} (hinv : s.Inv) : s.mem.b.length = s.params.bufCap := by
  obtain ⟨-, hlen, -⟩ := hinv.mem_wf
  exact hlen

theorem State.Inv.phase_ne_tcpBusy {s : State} (hinv : s.Inv) : s.phase ≠ .tcpBusy := by
  obtain ⟨-, -, -, -, -, -, hbusy⟩ := hinv
  exact hbusy

/-! ### The frame detector (R220 to R224) -/

theorem rtuCycle_of_configured (s : State) (hi : s.phase = .idle) (hc : configured s.cfg = true)
    (hb : s.cfg.baud ≠ 0#32) : rtuCycle s = .next (rtuEnter s) := by
  rw [rtuCycle, onlyIdle_of_idle _ s _ hi, if_pos hc, if_neg hb]

/-- A poll that counts more bytes than the one before records the count and starts another wait (R222). -/
def countGrown (s : State) : State :=
  { s with det := { prevCnt := s.env.rxFifo.length, curCnt := s.env.rxFifo.length }, gapTimer := t15Of s.cfg.baud }

theorem poll_of_growth (s : State) (h : s.det.prevCnt < s.env.rxFifo.length) : poll s = countGrown s := if_pos h

/-- The frame that a poll without growth completes: everything in the FIFO, as FRAME (R223, R224). -/
def frameRead (s : State) : State :=
  { s with
    phase := .frameReady
    det := { s.det with curCnt := s.env.rxFifo.length }
    frameLen := s.env.rxFifo.length
    mem := { s.mem with frame := putBytes 0 s.env.rxFifo s.mem.frame }
    env := { s.env with rxFifo := [] } }

/-- The end of an oversize frame: the FIFO is emptied and the cycle ends (R224, D11). -/
def frameDropped (s : State) : State :=
  endCycle { s with det := { s.det with curCnt := s.env.rxFifo.length }, env := { s.env with rxFifo := [] } }

theorem poll_of_complete (s : State) (hg : s.env.rxFifo.length ≤ s.det.prevCnt) (hne : s.env.rxFifo.length ≠ 0)
    (hf : s.env.rxFifo.length ≤ s.params.rxCap) : poll s = frameRead s := by
  rw [poll_of_no_growth s hg, readOut, if_neg hne, if_neg (Nat.not_lt.mpr hf)]
  simp only [List.take_length, List.drop_length, frameRead]

theorem poll_of_oversize (s : State) (hg : s.env.rxFifo.length ≤ s.det.prevCnt) (hne : s.env.rxFifo.length ≠ 0)
    (ho : s.params.rxCap < s.env.rxFifo.length) : poll s = frameDropped s := by
  rw [poll_of_no_growth s hg, readOut, if_neg hne, if_pos ho]
  simp only [List.drop_length, frameDropped]

/-- What the read-out leaves in FRAME (R29, R224). -/
theorem frameRead_frame (s : State) (h : s.env.rxFifo.length ≤ s.mem.frame.length) :
    (frameRead s).mem.frame.take s.env.rxFifo.length = s.env.rxFifo ∧
      ∀ k, s.env.rxFifo.length ≤ k → byteAt (frameRead s).mem.frame k = byteAt s.mem.frame k := by
  refine ⟨putBytes_take s.env.rxFifo s.mem.frame h, fun k hk => ?_⟩
  rw [frameRead, byteAt_putBytes _ _ _ _ (by omega), if_neg (by omega)]

theorem accumulate_phase (s : State) (h : s.phase = .accumulating) : (accumulate s).phase =
    if s.gapTimer ≠ 0#32 ∨ s.det.prevCnt < s.env.rxFifo.length then .accumulating
    else if s.env.rxFifo.length = 0 ∨ s.params.rxCap < s.env.rxFifo.length then .idle
    else .frameReady := by
  by_cases hgap : s.gapTimer = 0#32
  · rw [accumulate_of_gapTimer_zero s hgap]
    by_cases hgrow : s.det.prevCnt < s.env.rxFifo.length
    · rw [poll_of_growth s hgrow, if_pos (.inr hgrow)]
      exact h
    · have hstop : s.env.rxFifo.length ≤ s.det.prevCnt := Nat.le_of_not_lt hgrow
      rw [if_neg (by simp [hgap, hgrow])]
      by_cases hzero : s.env.rxFifo.length = 0
      · rw [if_pos (.inl hzero), poll_of_empty s (List.length_eq_zero_iff.mp hzero)]
        rfl
      · by_cases hover : s.params.rxCap < s.env.rxFifo.length
        · rw [if_pos (.inr hover), poll_of_oversize s hstop hzero hover]
          rfl
        · rw [if_neg (by simp [hzero, hover]), poll_of_complete s hstop hzero (Nat.le_of_not_lt hover)]
          rfl
  · rw [accumulate_of_running s hgap, if_pos (.inl hgap)]
    exact h

/-! ### Validation (R226 to R232) -/

theorem step_of_frameReady (s : State) (hph : s.phase = .frameReady) (hs : hostSilent s) :
    step s = .next (validate s) :=
  (step_of_hostSilent s hs).trans (sequence_of_frameReady hph)

/-- Validation moves PHASE and the CRC registers only. -/
theorem validate_frame (s : State) : validate s = { s with phase := (validate s).phase, crc := (validate s).crc } := by
  unfold validate
  simp only
  split
  · rfl
  · split
    · rfl
    · split <;> rfl

/-- R226, R227, R229: exactly a frame that passes all checks is dispatched. -/
theorem validate_phase (s : State) : (validate s).phase = if frameValid s then .dispatched else .idle := by
  unfold validate
  simp only
  split
  · next hlen => rw [if_neg fun ⟨h4, _⟩ => Nat.not_lt.mpr h4 hlen]; rfl
  · next hlen =>
    split
    · next haddr => rw [if_neg fun ⟨_, ha, _⟩ => ha.elim haddr.1 haddr.2]; rfl
    · next haddr =>
      have haddr' : frameAddr s = s.cfg.slaveId ∨ frameAddr s = s.params.broadcast := by
        rwa [← not_and_or.trans (or_congr not_not not_not)]
      split
      · next hcrc => rw [if_pos ⟨Nat.le_of_not_lt hlen, haddr', hcrc⟩]
      · next hcrc => rw [if_neg fun ⟨_, _, hc⟩ => hcrc hc]; rfl

/-! ### Dispatch (R233) -/

theorem afterHandler_phase (a : Byte) (s : State) : (afterHandler a s).phase =
    if (afterHandler a s).reply.disp = .suppressed then .suppressed else .reply := rfl

theorem afterHandler_disp (a : Byte) (s : State) :
    (afterHandler a s).reply.disp = if a = s.params.broadcast then .suppressed else s.reply.disp := rfl

/-- The phase after a dispatch, by the address and the disposition the handler asked for. -/
theorem afterHandler_phase_eq (a : Byte) (s : State) (h : s.reply.disp ≠ .suppressed) :
    (afterHandler a s).phase = if a = s.params.broadcast then .suppressed else .reply := by
  rw [afterHandler_phase, afterHandler_disp]
  by_cases ha : a = s.params.broadcast
  · rw [if_pos ha, if_pos rfl, if_pos ha]
  · rw [if_neg ha, if_neg h, if_neg ha]

theorem step_of_dispatched_next (s u : State) (hph : s.phase = .dispatched) (hs : hostSilent s)
    (h : runHandler s = .next u) : step s = .next (afterHandler (frameAddr s) u) := by
  rw [step_of_hostSilent s hs, sequence_of_dispatched hph, dispatchFrame, h]
  rfl

/-! ### The default handler (R234) -/

/-- What the default handler makes of the decode's last state: its response without the header, over B, SIZE and RESP_LEN
as they were (R234; log 8). -/
def defaultReply (s t : State) : State :=
  State.setReply ((t.mem.b.take t.dec.respLen).drop 7) .normal
    { t with mem := { t.mem with b := s.mem.b }, dec := { t.dec with size := s.dec.size, respLen := s.dec.respLen } }

theorem runHandler_default (s : State) (h : s.env.handler = []) :
    runHandler s = onNext (decodeRequest (scratch (framePdu s) (frameAddr s) s)) (defaultReply s) := by
  simp only [runHandler, h]
  rfl

theorem runHandler_answer (s : State) (ans : HandlerAnswer) (rest : List HandlerAnswer)
    (h : s.env.handler = ans :: rest) : runHandler s = .next (applyAnswer ans { s with env := { s.env with handler := rest } }) := by
  simp only [runHandler, h]

/-- The state on which the default handler's decode runs its instruction. -/
def dispatchEntry (s : State) : State :=
  let t := (scratch (framePdu s) (frameAddr s) s).redrawB (7 + (framePdu s).length)
  t.latchFc (byteAt t.mem.b 7)

theorem framePdu_length (s : State) (h : s.frameLen ≤ s.mem.frame.length) : (framePdu s).length = s.frameLen - 3 := by
  simp only [framePdu, List.length_drop, List.length_take]
  omega

/-- Bytes put at an offset stand between what was before and after them. -/
theorem putBytes_eq_append (i : Nat) (xs buf : List Byte) (h : i + xs.length ≤ buf.length) :
    putBytes i xs buf = buf.take i ++ xs ++ buf.drop (i + xs.length) := by
  induction xs generalizing i buf with
  | nil => simp [putBytes]
  | cons x xs ih =>
    simp only [List.length_cons] at h ⊢
    have htake : (buf.set i x).take (i + 1) = buf.take i ++ [x] := by
      rw [List.take_add_one, List.take_set_of_le (Nat.le_refl i), List.getElem?_set_self (by omega)]
      rfl
    rw [putBytes, ih (i + 1) (buf.set i x) (by simp; omega), htake, List.drop_set_of_lt (by omega),
      show i + 1 + xs.length = i + (xs.length + 1) by omega, List.append_assoc, List.append_assoc, List.append_assoc]
    rfl

section Dispatch

variable {s : State} (hinv : s.Inv) (hph : s.phase = .dispatched)

include hinv hph

/-- A dispatched frame has a function code, and its PDU fits into the scratch copy (R226, R8). -/
theorem framePdu_bounds : 1 ≤ (framePdu s).length ∧ 7 + (framePdu s).length ≤ s.params.bufCap := by
  obtain ⟨⟨-, -, -, hcap⟩, ⟨-, -, hframe⟩, -, -, ⟨hlen, h4⟩, -, -⟩ := hinv
  have h4 := h4 hph
  rw [framePdu_length s (by omega)]
  omega

/-- The scratch copy holds six free bytes, the address, the PDU, and free bytes. -/
theorem dispatchEntry_b : ∃ header tail : List Byte, header.length = 6 ∧
    (dispatchEntry s).mem.b = header ++ frameAddr s :: framePdu s ++ tail ∧
      (dispatchEntry s).mem.b.length = s.params.bufCap := by
  obtain ⟨hpos, hfit⟩ := framePdu_bounds hinv hph
  have hscratch : (scratch (framePdu s) (frameAddr s) s).mem.b =
      (freeBytes s.freeIx s.params.bufCap).take 6 ++ (frameAddr s :: framePdu s) ++
        (freeBytes s.freeIx s.params.bufCap).drop (6 + (frameAddr s :: framePdu s).length) :=
    putBytes_eq_append 6 _ _ (by simp; omega)
  have hlen : (scratch (framePdu s) (frameAddr s) s).mem.b.length = s.params.bufCap :=
    (putBytes_length _ _ _).trans (freeBytes_length _ _)
  have hhead : ((freeBytes s.freeIx s.params.bufCap).take 6).length = 6 := by simp; omega
  refine ⟨(freeBytes s.freeIx s.params.bufCap).take 6,
    freeBytes (s.freeIx + s.params.bufCap) (s.params.bufCap - (7 + (framePdu s).length)), hhead, ?_, ?_⟩
  · have hb : (dispatchEntry s).mem.b = (scratch (framePdu s) (frameAddr s) s).mem.b.take (7 + (framePdu s).length) ++
        freeBytes (s.freeIx + s.params.bufCap)
          ((scratch (framePdu s) (frameAddr s) s).mem.b.length - (7 + (framePdu s).length)) := rfl
    rw [hb, hlen, hscratch, List.take_append_of_le_length (by simp; omega),
      List.take_of_length_le (by simp; omega)]
  · exact (State.redrawB_length _ _).trans hlen

theorem dispatchEntry_drop : ∃ tail : List Byte, (dispatchEntry s).mem.b.drop 7 = framePdu s ++ tail := by
  obtain ⟨header, tail, hhead, hb, -⟩ := dispatchEntry_b hinv hph
  refine ⟨tail, ?_⟩
  rw [hb, show header ++ frameAddr s :: framePdu s ++ tail = (header ++ [frameAddr s]) ++ (framePdu s ++ tail) by simp,
    List.drop_left' (by simp [hhead])]

/-- The default handler's decode runs the instruction its scratch copy holds. -/
theorem runHandler_default_run (hq : s.env.handler = []) :
    ∃ i t, decode ((dispatchEntry s).mem.b.drop 7) = .ok i ∧ exec i (dispatchEntry s) = .next t ∧
      runHandler s = .next (defaultReply s t) := by
  obtain ⟨hpos, hfit⟩ := framePdu_bounds hinv hph
  obtain ⟨-, -, -, -, hlen⟩ := dispatchEntry_b hinv hph
  have hbuf := hinv.bufCap_ge
  obtain ⟨i, hi⟩ := decode_of_length ((dispatchEntry s).mem.b.drop 7) (by rw [List.length_drop, hlen]; omega)
  obtain ⟨t, ht⟩ := exec_total i (dispatchEntry s)
  refine ⟨i, t, hi, ht, ?_⟩
  rw [runHandler_default s hq, decodeRequest_run (scratch (framePdu s) (frameAddr s) s) i
    (show 8 ≤ 7 + (framePdu s).length by omega) hi]
  exact congrArg (fun o => onNext o (defaultReply s)) ht

end Dispatch

/-! ### A replacement handler (R46) -/

theorem StoreWrite.apply_buffers (p : Params) (m : Memory) (w : StoreWrite) :
    (w.apply p m).b = m.b ∧ (w.apply p m).frame = m.frame := by
  cases w with
  | bit sp a v =>
    simp only [StoreWrite.apply]
    split
    · exact m.writeBit_buffers sp a v
    · exact ⟨rfl, rfl⟩
  | reg sp a v =>
    simp only [StoreWrite.apply]
    split
    · exact m.writeReg_buffers sp a v
    · exact ⟨rfl, rfl⟩

theorem StoreWrite.foldl_buffers (p : Params) (ws : List StoreWrite) (m : Memory) :
    (ws.foldl (StoreWrite.apply p) m).b = m.b ∧ (ws.foldl (StoreWrite.apply p) m).frame = m.frame := by
  induction ws generalizing m with
  | nil => exact ⟨rfl, rfl⟩
  | cons w ws ih =>
    obtain ⟨hb, hf⟩ := w.apply_buffers p m
    obtain ⟨hb', hf'⟩ := ih (w.apply p m)
    exact ⟨hb'.trans hb, hf'.trans hf⟩

/-- The writes of a handler take effect in order, those out of range not at all (R61). -/
theorem StoreWrite.foldl_readBit (p : Params) (ws : List StoreWrite) (m : Memory) (h : m.wf p) (sp : BitSpace) (a : Nat) :
    (ws.foldl (StoreWrite.apply p) m).readBit sp a = bitAfterWrites p sp a (m.readBit sp a) ws := by
  induction ws generalizing m with
  | nil => rfl
  | cons w ws ih =>
    rw [List.foldl_cons, ih _ (w.apply_wf p m h), w.apply_readBit p m h]
    cases w <;> rfl

theorem StoreWrite.foldl_readReg (p : Params) (ws : List StoreWrite) (m : Memory) (h : m.wf p) (sp : RegSpace) (a : Nat) :
    (ws.foldl (StoreWrite.apply p) m).readReg sp a = regAfterWrites p sp a (m.readReg sp a) ws := by
  induction ws generalizing m with
  | nil => rfl
  | cons w ws ih =>
    rw [List.foldl_cons, ih _ (w.apply_wf p m h), w.apply_readReg p m h]
    cases w <;> rfl

end Sys2Proof.Machine

/-- Settles O26: the port is open, the configuration is written, and the cycle's opening sets these three registers. -/
theorem acceptedCycleStartsAccumulating : Obligations.AcceptedCycleStartsAccumulating := by
  intro s hidle hissues hc hb
  rw [step_of_issues hissues]
  exact rtuCycle_of_configured (popped s) hidle hc hb

/-- Settles O27, by GAP_TIMER and the count. -/
theorem pollWaitsWhileTheCountGrows : Obligations.PollWaitsWhileTheCountGrows := by
  intro s hph hs
  rw [step_of_accumulating s hph hs]
  refine ⟨fun hgap => ?_, fun hgap hgrow => ?_, fun hgap hstop => ?_⟩
  · rw [accumulate_of_running s hgap]
  · rw [accumulate_of_gapTimer_zero s hgap, poll_of_growth s hgrow, countGrown]
  · rw [accumulate_of_gapTimer_zero s hgap, poll_of_no_growth s hstop]

/-- Settles O29: a frame that fits is read out whole, and a longer one is dropped whole. -/
theorem readOutConsumesTheCountedBytes : Obligations.ReadOutConsumesTheCountedBytes := by
  intro s hph hs hgap hframe hne hstop
  rw [step_of_accumulating s hph hs, accumulate_of_gapTimer_zero s hgap]
  have hn : s.env.rxFifo.length ≠ 0 := fun h => hne (List.length_eq_zero_iff.mp h)
  obtain hfits | hover := Nat.lt_or_ge s.params.rxCap s.env.rxFifo.length |>.symm
  · rw [poll_of_complete s hstop hn hfits]
    obtain ⟨htake, hrest⟩ := frameRead_frame s (by omega)
    exact ⟨frameRead s, rfl, rfl, rfl, rfl, rfl, rfl, rfl, rfl, fun _ => ⟨rfl, rfl, htake, hrest⟩,
      fun hover => absurd hover (Nat.not_lt.mpr hfits)⟩
  · rw [poll_of_oversize s hstop hn hover]
    exact ⟨frameDropped s, rfl, rfl, rfl, rfl, rfl, rfl, rfl, rfl, fun hfits => absurd hover (Nat.not_lt.mpr hfits),
      fun _ => ⟨rfl, rfl, rfl⟩⟩

/-- Settles O30: a poll that grows, a wait of T1.5, and a poll that does not. -/
theorem quietLineEndsTheFrameAfterOneWait : Obligations.QuietLineEndsTheFrameAfterOneWait := by
  intro s hph hh hgap hline hgrow hfits hframe
  have hfirst : step s = .next (countGrown s) := by
    rw [step_of_accumulating s hph (hostSilent_of_host_nil hh), accumulate_of_gapTimer_zero s hgap,
      poll_of_growth s hgrow]
  have hwait := run_wait (t15Of s.cfg.baud).toNat (countGrown s) rfl hh (.inl hph)
  have hfifo : (Env.tick^[(t15Of s.cfg.baud).toNat] (countGrown s).env).rxFifo = s.env.rxFifo :=
    Env.iterate_tick_rxFifo _ s.env hline
  have hhost := Env.iterate_tick_host (t15Of s.cfg.baud).toNat (countGrown s).env hh
  generalize Env.tick^[(t15Of s.cfg.baud).toNat] (countGrown s).env = e at hwait hfifo hhost
  have hlast : step { countGrown s with gapTimer := 0#32, env := e } =
      .next (frameRead { countGrown s with gapTimer := 0#32, env := e }) := by
    rw [step_of_accumulating { countGrown s with gapTimer := 0#32, env := e } hph (hostSilent_of_host_nil hhost),
      accumulate_of_gapTimer_zero _ rfl, poll_of_complete]
    · exact Nat.le_of_eq (congrArg _ hfifo)
    · simp only [hfifo]; omega
    · exact Nat.le_trans (Nat.le_of_eq (congrArg _ hfifo)) hfits
  have hrun : Sys2Proof.core.run ((t15Of s.cfg.baud).toNat + 2) s =
      .next (frameRead { countGrown s with gapTimer := 0#32, env := e }) := by
    rw [run_succ _ s _ hfirst, run_add _ 1 _ _ hwait, run_succ 0 _ _ hlast]
    rfl
  obtain ⟨htake, -⟩ := frameRead_frame { countGrown s with gapTimer := 0#32, env := e } (by
    simp only [hfifo]; exact Nat.le_trans hfits (Nat.le_of_eq hframe.symm))
  exact ⟨_, hrun, rfl, congrArg _ hfifo, htake.trans hfifo, rfl⟩

/-- Settles O31: validation moves PHASE and the CRC registers only, and PHASE by its checks. -/
theorem invalidFrameIsDiscardedInSilence : Obligations.InvalidFrameIsDiscardedInSilence := by
  intro s hph hs
  have hphase := validate_phase s
  refine ⟨_, step_of_frameReady s hph hs, ?_⟩
  rw [validate_frame s]
  exact ⟨rfl, rfl, rfl, rfl, rfl, rfl, rfl, fun hv => hphase.trans (if_pos hv), fun hv => hphase.trans (if_neg hv)⟩

/-- Settles O32, from O31: one failed check makes the frame invalid. -/
theorem wrongCrcOrForeignAddressNeverDispatches : Obligations.WrongCrcOrForeignAddressNeverDispatches := by
  intro s t hph hs hstep hbad
  obtain ⟨u, hu, hmem, henv, htx, -, -, -, -, -, hidle⟩ := invalidFrameIsDiscardedInSilence s hph hs
  cases hstep.symm.trans hu
  have hinvalid : ¬frameValid s := by
    rintro ⟨hlen, haddr, hcrc⟩
    obtain hcrc' | ⟨hslave, hbroadcast⟩ | hshort := hbad
    · exact hcrc' hcrc
    · exact haddr.elim hslave hbroadcast
    · omega
  exact ⟨hidle hinvalid, by rw [transmitted, henv], hmem, by rw [htx]⟩

/-- Settles O33: the scratch copy holds the PDU at offset 7, so the decoder reads the request the PDU begins with. -/
theorem rtuDispatchRunsTheFramesInstruction : Obligations.RtuDispatchRunsTheFramesInstruction := by
  intro s hinv hph hs hq
  obtain ⟨header, tail, hhead, hb, hlen⟩ := dispatchEntry_b hinv hph
  obtain ⟨tail', hdrop⟩ := dispatchEntry_drop hinv hph
  obtain ⟨i, t, hi, ht, hrun⟩ := runHandler_default_run hinv hph hq
  obtain ⟨hparams, -, -, -, -, -, -, htx, -, henv, hframe⟩ := exec_outsideSame i _ t ht
  have hnormal : (defaultReply s t).reply.disp ≠ .suppressed := by
    rw [defaultReply, State.setReply_reply]
    nofun
  refine ⟨dispatchEntry s, i, t, afterHandler (frameAddr s) (defaultReply s t), hi, ?_, ht, rfl, rfl, rfl, rfl, rfl, rfl,
    rfl, hlen, ?_, ?_, step_of_dispatched_next s _ hph hs hrun, rfl, rfl, ?_, ?_, rfl, rfl, rfl, rfl, rfl, hframe, rfl,
    rfl, htx, henv⟩
  · intro j hj hpre
    have hj' : decode ((dispatchEntry s).mem.b.drop 7) = .ok j :=
      decode_of_prefix hj (hpre.trans (by rw [hdrop]; exact List.prefix_append _ _))
    cases hi.symm.trans hj'
    rfl
  · rw [hb]
    simp [byteAt, List.getD_eq_getElem?_getD, hhead]
  · rw [hdrop, List.take_left]
  · rw [afterHandler_disp]
    exact congrArg (fun p : Params => if frameAddr s = p.broadcast then Disposition.suppressed else .normal) hparams
  · rw [afterHandler_phase_eq _ _ hnormal]
    exact congrArg (fun p : Params => if frameAddr s = p.broadcast then Phase.suppressed else .reply) hparams

/-- Settles O35: the handler's fields and writes are what is left, and a broadcast overrides its disposition. -/
theorem handlerAnswerBecomesTheReply : Obligations.HandlerAnswerBecomesTheReply := by
  intro s ans rest hph hs hq hw
  obtain ⟨hb, hf⟩ := StoreWrite.foldl_buffers s.params ans.writes s.mem
  have hask : (applyAnswer ans { s with env := { s.env with handler := rest } }).reply.disp ≠ .suppressed := by
    rw [applyAnswer, State.setReply_reply]
    cases ans.echo <;> nofun
  exact ⟨_, step_of_dispatched_next s _ hph hs (runHandler_answer s ans rest hq), rfl, rfl, rfl,
    afterHandler_phase_eq _ _ hask, rfl, hf, hb, StoreWrite.foldl_readBit s.params ans.writes s.mem hw,
    StoreWrite.foldl_readReg s.params ans.writes s.mem hw⟩

/-- Settles O36: by O33 the reply is an instruction's response without its header, and by O14 that has 9 to 264 bytes and
keeps the function code or marks it as an exception. -/
theorem validatedFrameAlwaysGetsAReply : Obligations.ValidatedFrameAlwaysGetsAReply := by
  intro s hinv hph hs hq haddr
  obtain ⟨u, i, t, v, -, -, ht, -, -, -, -, -, -, -, hulen, -, hpdu, hstep, hresp, hrespLen, hdisp, hphase, -⟩ :=
    rtuDispatchRunsTheFramesInstruction s hinv hph hs hq
  obtain ⟨hpos, -⟩ := framePdu_bounds hinv hph
  have hbuf := hinv.bufCap_ge
  obtain ⟨-, hlow, hhigh, -, hfc⟩ := everyResponseHasTheHeaderForm i u t (by omega) ht
  have htlen := exec_b_length i u t ht
  have hcode : byteAt (framePdu s) 0 = byteAt u.mem.b 7 := by
    rw [← hpdu, byteAt_take _ _ _ hpos]
    simp [byteAt, List.getD_eq_getElem?_getD]
  have hreply : byteAt v.reply.respPdu 0 = byteAt t.mem.b 7 := by
    rw [hresp, ← byteAt_take t.mem.b t.dec.respLen 7 (by omega)]
    simp [byteAt, List.getD_eq_getElem?_getD]
  have hcount : v.reply.respPduLen = t.dec.respLen - 7 := by
    rw [hrespLen, hresp, List.length_drop, List.length_take]
    omega
  rw [if_neg haddr] at hdisp hphase
  refine ⟨v, hstep, hphase, hdisp, by omega, by omega, ?_⟩
  rw [hreply, hcode]
  exact hfc.imp_right fun ⟨_, _, _, _, _, _, h7, _⟩ => h7

end

section
/-! PROOFS. Transmission (R263 to R270): the transmit-enable sequence step by step, the data phase under any transport,
and whole replies over a transport that takes and sends every byte at once (log 13). -/

open Sys2Proof Sys2Proof.Machine Sys2Proof.Claims

namespace Sys2Proof.Machine

/-! ### One step of the sequence, by TXPH (R265) -/

theorem step_of_reply {s : State} (hph : s.phase = .reply) (hs : hostSilent s) : step s = .next (transmit s) :=
  (step_of_hostSilent s hs).trans (sequence_of_reply hph)

theorem transmit_of_none {s : State} (h : s.tx.txph = .none) : transmit s = startReply s := by
  simp only [transmit, h]

theorem transmit_of_guard {s : State} (h : s.tx.txph = .guard) :
    transmit s = whileWaiting (enterWait .preDelay (t35Of s.cfg.baud)) s := by
  simp only [transmit, h]

theorem transmit_of_preDelay {s : State} (h : s.tx.txph = .preDelay) : transmit s = whileWaiting startData s := by
  simp only [transmit, h]

theorem transmit_of_data {s : State} (h : s.tx.txph = .data) : transmit s = dataPhase s := by
  simp only [transmit, h]

theorem transmit_of_flush {s : State} (h : s.tx.txph = .flush) : transmit s = flushPhase s := by
  simp only [transmit, h]

theorem transmit_of_postDelay {s : State} (h : s.tx.txph = .postDelay) : transmit s = whileWaiting endReply s := by
  simp only [transmit, h]

/-! ### The data phase (R43, R266, R267) -/

/-- A TxWrite that the transport takes. -/
theorem writeNext_of_accept {b : Byte} {rest : List Byte} {s : State} (h : s.env.nextTiming.accept = 0) :
    writeNext b rest s = { s with tx := { s.tx with todo := rest }, env := s.env.txAccept b } := if_pos h

/-- A TxWrite that blocks. -/
theorem writeNext_of_block {b : Byte} {rest : List Byte} {s : State} (h : s.env.nextTiming.accept ≠ 0) :
    writeNext b rest s = State.tick { s with env := s.env.txBlock } := if_neg h

theorem dataPhase_of_cons {b : Byte} {rest : List Byte} {s : State} (h : s.tx.todo = b :: rest) :
    dataPhase s = writeNext b rest s := by
  simp only [dataPhase, h]

theorem dataPhase_of_crcDue {s : State} (h : s.tx.todo = []) (hc : s.tx.crcDue = true) : dataPhase s = queueCrc s := by
  simp only [dataPhase, h, if_pos hc]

/-- TXPH <- Flush, at the end of the data phase (R265). -/
def toFlush (s : State) : State := { s with tx := { s.tx with txph := .flush } }

theorem dataPhase_of_done {s : State} (h : s.tx.todo = []) (hc : s.tx.crcDue = false) : dataPhase s = toFlush s := by
  simp only [dataPhase, h, hc, Bool.false_eq_true, if_false, toFlush]

section DataStep

variable {s : State} (hph : s.phase = .reply) (hs : hostSilent s) (htx : s.tx.txph = .data)

include hph hs htx

theorem step_writeNext {b : Byte} {rest : List Byte} (h : s.tx.todo = b :: rest) :
    step s = .next (writeNext b rest s) := by
  rw [step_of_reply hph hs, transmit_of_data htx, dataPhase_of_cons h]

theorem step_queueCrc (h : s.tx.todo = []) (hc : s.tx.crcDue = true) : step s = .next (queueCrc s) := by
  rw [step_of_reply hph hs, transmit_of_data htx, dataPhase_of_crcDue h hc]

theorem step_toFlush (h : s.tx.todo = []) (hc : s.tx.crcDue = false) : step s = .next (toFlush s) := by
  rw [step_of_reply hph hs, transmit_of_data htx, dataPhase_of_done h hc]

end DataStep

/-- R43: a blocked write hands nothing over. -/
theorem Env.txBlock_tick_bytes (e : Env) :
    e.txBlock.tick.sent ++ e.txBlock.tick.inFlight.map (·.byte) = e.sent ++ e.inFlight.map (·.byte) :=
  e.txBlock.tick_bytes

/-! ### A whole data phase over a transport that takes and sends every byte at once -/

theorem Env.nextTiming_of_nil {e : Env} (h : e.txTimings = []) : e.nextTiming = { accept := 0, leave := 0 } := by
  simp [Env.nextTiming, h]

/-- The transport has nothing in flight and takes and sends every byte at once. -/
def Env.atOnce (e : Env) : Prop := e.inFlight = [] ∧ e.txTimings = []

theorem Env.txAccept_of_atOnce {e : Env} (h : e.atOnce) (b : Byte) : e.txAccept b = { e with sent := e.sent ++ [b] } := by
  obtain ⟨hflight, htimings⟩ := h
  simp [Env.txAccept, Env.settle, Env.nextTiming_of_nil htimings, hflight, htimings, leaveReady]

/-- `s` after the bytes `bytes` have been sent, with `rest` still to write. -/
def bytesSent (bytes rest : List Byte) (s : State) : State :=
  { s with tx := { s.tx with todo := rest }, env := { s.env with sent := s.env.sent ++ bytes } }

theorem bytesSent_bytesSent (bytes bytes' rest rest' : List Byte) (s : State) :
    bytesSent bytes' rest' (bytesSent bytes rest s) = bytesSent (bytes ++ bytes') rest' s := by
  simp only [bytesSent, List.append_assoc]

/-- One step a byte. -/
theorem run_bytesSent (bytes : List Byte) (s : State) (hb : s.tx.todo = bytes) (hph : s.phase = .reply)
    (hh : s.env.host = []) (htx : s.tx.txph = .data) (hat : s.env.atOnce) :
    Sys2Proof.core.run bytes.length s = .next (bytesSent bytes [] s) := by
  induction bytes generalizing s with
  | nil =>
    have hsame : bytesSent [] [] s = s := by
      rw [bytesSent, List.append_nil, ← hb]
    rw [hsame]
    rfl
  | cons b rest ih =>
    have haccept : s.env.nextTiming.accept = 0 := by rw [Env.nextTiming_of_nil hat.2]
    have hstep : step s = .next (bytesSent [b] rest s) := by
      rw [step_writeNext hph (hostSilent_of_host_nil hh) htx hb, writeNext_of_accept haccept, Env.txAccept_of_atOnce hat,
        bytesSent]
    rw [List.length_cons, run_succ _ s _ hstep, ih (bytesSent [b] rest s) rfl hph hh htx hat, bytesSent_bytesSent,
      List.singleton_append]

/-- The two CRC bytes of a Normal reply, high byte first (R266). -/
def crcBytes (s : State) : List Byte :=
  [hi8 (crc16 s.cfg.slaveId s.reply.respPdu), lo8 (crc16 s.cfg.slaveId s.reply.respPdu)]

/-- In a Normal data phase, when slave id and response PDU are sent. -/
def pduSent (s : State) : State := bytesSent (s.cfg.slaveId :: s.reply.respPdu) [] (startData s)

/-- In a Normal data phase, when the CRC is sent as well. -/
def crcSent (s : State) : State := bytesSent (crcBytes s) [] (queueCrc (pduSent s))

/-- The end of a Normal data phase: slave id, response PDU and CRC are sent, and TXPH is Flush. -/
def normalSent (s : State) : State :=
  { s with
    crc := crcRegsOf s.cfg.slaveId s.reply.respPdu
    tx := { s.tx with txph := .flush, todo := [], crcDue := false }
    env := { s.env with sent := s.env.sent ++ (s.cfg.slaveId :: s.reply.respPdu) ++ crcBytes s } }

/-- The end of an Echo data phase: the frame is sent, and TXPH is Flush. -/
def echoSent (s : State) : State :=
  { s with
    tx := { s.tx with txph := .flush, todo := [], crcDue := false }
    env := { s.env with sent := s.env.sent ++ s.mem.frame.take s.frameLen } }

section DataPhase

variable {s : State} (hph : s.phase = .reply) (hh : s.env.host = []) (htx : s.tx.txph = .preDelay)
  (hgap : s.gapTimer = 0#32) (hat : s.env.atOnce)

include hph hh htx hgap

theorem step_startData : step s = .next (startData s) := by
  rw [step_of_reply hph (hostSilent_of_host_nil hh), transmit_of_preDelay htx, whileWaiting_of_done _ s hgap]

include hat

/-- R266: RESP_PDU_LEN + 6 steps: the start, the slave id and the PDU, the CRC, its two bytes, and the turn to Flush. -/
theorem run_normalSent (hd : s.reply.disp = .normal) (hl : s.reply.respPduLen = s.reply.respPdu.length) :
    Sys2Proof.core.run (s.reply.respPduLen + 6) s = .next (normalSent s) := by
  have hpdu : s.reply.respPdu.take s.reply.respPduLen = s.reply.respPdu := by rw [hl, List.take_length]
  have hbytes : (startData s).tx.todo = s.cfg.slaveId :: s.reply.respPdu := by
    simp only [startData, dataBytes, hd, hpdu]
  have hdue : (startData s).tx.crcDue = true := decide_eq_true hd
  have hsilent := hostSilent_of_host_nil hh
  have hsilent := hostSilent_of_host_nil hh
  have hpdus : Sys2Proof.core.run _ (startData s) = .next (pduSent s) :=
    run_bytesSent (s.cfg.slaveId :: s.reply.respPdu) (startData s) hbytes hph hh rfl hat
  have hcrc : step (pduSent s) = .next (queueCrc (pduSent s)) :=
    step_queueCrc (s := pduSent s) hph hsilent rfl rfl hdue
  have hcrcBytes : (queueCrc (pduSent s)).tx.todo = crcBytes s := by
    rw [crcBytes, crc16, ← hpdu]
    rfl
  have hcrcRegs : (queueCrc (pduSent s)).crc = crcRegsOf s.cfg.slaveId s.reply.respPdu := by
    rw [← hpdu]
    rfl
  have hcrcs : Sys2Proof.core.run _ (queueCrc (pduSent s)) = .next (crcSent s) :=
    run_bytesSent (crcBytes s) (queueCrc (pduSent s)) hcrcBytes hph hh rfl hat
  have hflush : step (crcSent s) = .next (toFlush (crcSent s)) :=
    step_toFlush (s := crcSent s) hph hsilent rfl rfl rfl
  have hend : toFlush (crcSent s) = normalSent s := by
    rw [normalSent, ← hcrcRegs]
    rfl
  rw [show s.reply.respPduLen + 6 = (s.cfg.slaveId :: s.reply.respPdu).length + ((crcBytes s).length + 1 + 1) + 1 by
      simp only [List.length_cons, crcBytes, List.length_nil]; omega,
    run_succ _ s _ (step_startData hph hh htx hgap), run_add _ _ _ _ hpdus, run_succ _ _ _ hcrc, run_add _ 1 _ _ hcrcs,
    run_succ 0 _ _ hflush, hend]
  rfl

/-- R267: FRAME_LEN + 2 steps: the start, the frame, and the turn to Flush. -/
theorem run_echoSent (hd : s.reply.disp = .echo) (hl : s.frameLen ≤ s.mem.frame.length) :
    Sys2Proof.core.run (s.frameLen + 2) s = .next (echoSent s) := by
  have hbytes : (startData s).tx.todo = s.mem.frame.take s.frameLen := by
    simp only [startData, dataBytes, hd]
  have hdue : (startData s).tx.crcDue = false := by
    simp [startData, hd]
  have hframe := run_bytesSent _ (startData s) hbytes hph hh rfl hat
  have hflush : step (bytesSent (s.mem.frame.take s.frameLen) [] (startData s)) = .next (echoSent s) := by
    refine (step_toFlush (s := bytesSent (s.mem.frame.take s.frameLen) [] (startData s)) hph
      (hostSilent_of_host_nil hh) rfl rfl hdue).trans ?_
    rw [echoSent, ← hdue]
    rfl
  rw [show s.frameLen + 2 = (s.mem.frame.take s.frameLen).length + 1 + 1 by rw [List.length_take]; omega,
    run_succ _ s _ (step_startData hph hh htx hgap), run_add _ 1 _ _ hframe, run_succ 0 _ _ hflush]
  rfl

end DataPhase

/-! ### A whole Normal reply (R265) -/

/-- While nothing is in flight and neither line nor host has anything pending, a tick passes unseen outside. -/
theorem Env.tick_of_quiet {e : Env} (hf : e.inFlight = []) (hl : e.line = []) (hh : e.host = []) : e.tick = e := by
  obtain ⟨fifo, flight, sent, line, timings, host, out, handler⟩ := e
  subst hf hl hh
  simp [Env.tick, Env.settle, tickLine, tickFlight, tickHost, leaveReady]

theorem flushPhase_of_empty {s : State} (h : s.env.inFlight = []) :
    flushPhase s = enterWait .postDelay (t35Of s.cfg.baud) s := if_pos h

/-- A wait over a quiet outside world changes the timer only. -/
theorem run_quiet_wait (s : State) (hw : s.waits) (hf : s.env.inFlight = []) (hl : s.env.line = [])
    (hh : s.env.host = []) : Sys2Proof.core.run s.gapTimer.toNat s = .next { s with gapTimer := 0#32 } := by
  rw [run_wait _ s rfl hh hw, Function.iterate_fixed (Env.tick_of_quiet hf hl hh)]

/-- At the end of PreDelay: TX_EN is 1 and nothing is sent yet. -/
def preDelayed (s : State) : State :=
  { s with tx := { s.tx with txph := .preDelay, txEn := true }, gapTimer := 0#32 }

section Reply

variable {s : State} (hph : s.phase = .reply) (hh : s.env.host = []) (hl : s.env.line = []) (hat : s.env.atOnce)

include hph hh hl hat

/-- From Reply to the end of PreDelay: the start, the guard interval, one change of TXPH, and T3.5. -/
theorem run_to_data (htx : s.tx.txph = .none) :
    Sys2Proof.core.run (1 + (s.cfg.tGuard.toNat + (1 + (t35Of s.cfg.baud).toNat))) s =
      .next (preDelayed s) := by
  have hsilent := hostSilent_of_host_nil hh
  have hstart : step s = .next (startReply s) := by rw [step_of_reply hph hsilent, transmit_of_none htx]
  have hguard := run_quiet_wait (startReply s) (.inr ⟨hph, by simp [startReply]⟩) hat.1 hl hh
  have hpre : step { startReply s with gapTimer := 0#32 } =
      .next (enterWait .preDelay (t35Of s.cfg.baud) { startReply s with gapTimer := 0#32 }) := by
    rw [step_of_reply (s := { startReply s with gapTimer := 0#32 }) hph hsilent, transmit_of_guard rfl,
      whileWaiting_of_done _ _ rfl]
    rfl
  have hdelay := run_quiet_wait (enterWait .preDelay (t35Of s.cfg.baud) { startReply s with gapTimer := 0#32 })
    (.inr ⟨hph, by simp⟩) hat.1 hl hh
  rw [Nat.add_comm 1, run_succ _ s _ hstart]
  refine (run_add _ _ _ _ hguard).trans ?_
  rw [Nat.add_comm 1, run_succ _ _ _ hpre]
  exact hdelay

/-- From Flush with nothing in flight to Idle. -/
theorem run_to_idle (htx : s.tx.txph = .flush) :
    Sys2Proof.core.run (1 + ((t35Of s.cfg.baud).toNat + 1)) s =
      .next { s with tx := { s.tx with txph := .none, txEn := false }, gapTimer := 0#32, phase := .idle } := by
  have hsilent := hostSilent_of_host_nil hh
  have hpost : step s = .next (enterWait .postDelay (t35Of s.cfg.baud) s) := by
    rw [step_of_reply hph hsilent, transmit_of_flush htx, flushPhase_of_empty hat.1]
  have hdelay := run_quiet_wait (enterWait .postDelay (t35Of s.cfg.baud) s) (.inr ⟨hph, by simp⟩) hat.1 hl hh
  have hend : step { enterWait .postDelay (t35Of s.cfg.baud) s with gapTimer := 0#32 } =
      .next (endReply { enterWait .postDelay (t35Of s.cfg.baud) s with gapTimer := 0#32 }) := by
    rw [step_of_reply (s := { enterWait .postDelay (t35Of s.cfg.baud) s with gapTimer := 0#32 }) hph hsilent,
      transmit_of_postDelay rfl, whileWaiting_of_done _ _ rfl]
  rw [Nat.add_comm 1, run_succ _ s _ hpost]
  refine (run_add _ 1 _ _ hdelay).trans ?_
  rw [run_succ 0 _ _ hend]
  rfl

end Reply

/-! ### What a step of the sequence can change -/

/-- The fields that the sequence can change. -/
theorem transmit_frame (s : State) : transmit s = { s with
    phase := (transmit s).phase, tx := (transmit s).tx, crc := (transmit s).crc, gapTimer := (transmit s).gapTimer
    env := (transmit s).env } := by
  unfold transmit whileWaiting dataPhase writeNext flushPhase
  split
  · rfl
  · split <;> rfl
  · split <;> rfl
  · split
    · split <;> rfl
    · split <;> rfl
  · split <;> rfl
  · split <;> rfl

theorem whileWaiting_phase (next : State → State) (s : State) (h : (next s).phase = s.phase) :
    (whileWaiting next s).phase = s.phase := by
  unfold whileWaiting
  split
  · exact h
  · rfl

theorem whileWaiting_env (next : State → State) (s : State) (h : (next s).env = s.env) :
    (whileWaiting next s).env = s.env ∨ (whileWaiting next s).env = s.env.tick := by
  unfold whileWaiting
  split
  · exact .inl h
  · exact .inr rfl

theorem dataPhase_phase (s : State) : (dataPhase s).phase = s.phase := by
  unfold dataPhase writeNext
  split
  · split <;> rfl
  · split <;> rfl

theorem flushPhase_phase (s : State) : (flushPhase s).phase = s.phase := by
  unfold flushPhase
  split <;> rfl

/-- R237: the sequence leaves Reply at the end of its last wait. -/
theorem transmit_phase (s : State) :
    (transmit s).phase = if s.tx.txph = .postDelay ∧ s.gapTimer = 0#32 then .idle else s.phase := by
  cases h : s.tx.txph with
  | none => rw [transmit_of_none h, if_neg (by simp)]; rfl
  | guard => rw [transmit_of_guard h, if_neg (by simp)]; exact whileWaiting_phase _ s rfl
  | preDelay => rw [transmit_of_preDelay h, if_neg (by simp)]; exact whileWaiting_phase _ s rfl
  | data => rw [transmit_of_data h, if_neg (by simp)]; exact dataPhase_phase s
  | flush => rw [transmit_of_flush h, if_neg (by simp)]; exact flushPhase_phase s
  | postDelay =>
    rw [transmit_of_postDelay h]
    by_cases hg : s.gapTimer = 0#32
    · rw [whileWaiting_of_done _ s hg, if_pos ⟨rfl, hg⟩]; rfl
    · rw [whileWaiting_of_running _ s hg, if_neg fun hc => hg hc.2]; rfl

/-- Outside the data phase the outside world moves by a tick or not at all. -/
theorem transmit_env_of_not_data (s : State) (h : s.tx.txph ≠ .data) :
    (transmit s).env = s.env ∨ (transmit s).env = s.env.tick := by
  cases htx : s.tx.txph with
  | none => rw [transmit_of_none htx]; exact .inl rfl
  | guard => rw [transmit_of_guard htx]; exact whileWaiting_env _ s rfl
  | preDelay => rw [transmit_of_preDelay htx]; exact whileWaiting_env _ s rfl
  | data => exact absurd htx h
  | flush =>
    rw [transmit_of_flush htx, flushPhase]
    split
    · exact .inl rfl
    · exact .inr rfl
  | postDelay => rw [transmit_of_postDelay htx]; exact whileWaiting_env _ s rfl

/-- R42: the data phase takes no byte from the FIFO. -/
theorem dataPhase_rxFifo (s : State) : (dataPhase s).env.rxFifo = s.env.rxFifo ∨
    (dataPhase s).env.rxFifo = (tickLine s.env.line s.env.rxFifo).2 := by
  unfold dataPhase writeNext
  split
  · split
    · exact .inl rfl
    · exact .inr rfl
  · split
    · exact .inl rfl
    · exact .inl rfl

theorem transmit_rxFifo (s : State) : (transmit s).env.rxFifo = s.env.rxFifo ∨
    (transmit s).env.rxFifo = (tickLine s.env.line s.env.rxFifo).2 := by
  by_cases h : s.tx.txph = .data
  · rw [transmit_of_data h]
    exact dataPhase_rxFifo s
  · exact (transmit_env_of_not_data s h).imp (congrArg Env.rxFifo) (congrArg Env.rxFifo)

/-! ### What a step of the sequencer hands over and takes from the FIFO -/

/-- The line's side of the outside world is as before, or one tick on. -/
def Env.lineKept (e e' : Env) : Prop :=
  (e'.sent = e.sent ∧ e'.inFlight = e.inFlight ∧ e'.rxFifo = e.rxFifo) ∨ e' = e.tick

theorem Env.lineKept_bytes {e e' : Env} (h : e.lineKept e') :
    e'.sent ++ e'.inFlight.map (·.byte) = e.sent ++ e.inFlight.map (·.byte) := by
  obtain ⟨hsent, hflight, -⟩ | rfl := h
  · rw [hsent, hflight]
  · exact e.tick_bytes

theorem Env.lineKept_rxFifo {e e' : Env} (h : e.lineKept e') :
    e'.rxFifo = e.rxFifo ∨ e'.rxFifo = (tickLine e.line e.rxFifo).2 := by
  obtain ⟨-, -, hfifo⟩ | rfl := h
  · exact .inl hfifo
  · exact .inr e.tick_rxFifo

theorem Env.lineKept_of_eq {e e' : Env} (h : e' = e) : e.lineKept e' := .inl (by rw [h]; exact ⟨rfl, rfl, rfl⟩)

/-- Only the frame detector takes bytes from the FIFO, and only the data phase hands bytes over. -/
theorem sequence_lineKept (s t : State) (ha : s.phase ≠ .accumulating) (hd : ¬(s.phase = .reply ∧ s.tx.txph = .data))
    (h : sequence s = .next t) : s.env.lineKept t.env := by
  cases hph : s.phase with
  | idle => rw [sequence_of_idle hph] at h; cases h; exact .inr rfl
  | accumulating => exact absurd hph ha
  | frameReady =>
    rw [sequence_of_frameReady hph, validate_frame] at h
    cases h
    exact Env.lineKept_of_eq rfl
  | dispatched =>
    rw [sequence_of_dispatched hph] at h
    obtain ⟨u, hu, rfl⟩ := onNext_eq_next h
    obtain ⟨-, -, henv⟩ := runHandler_frame s u hu
    obtain ⟨-, henv'⟩ := afterHandler_tx_env (frameAddr s) u
    rw [henv', henv]
    exact .inl ⟨rfl, rfl, rfl⟩
  | reply =>
    rw [sequence_of_reply hph] at h
    cases h
    obtain henv | henv := transmit_env_of_not_data s fun htx => hd ⟨hph, htx⟩
    · exact Env.lineKept_of_eq henv
    · exact .inr henv
  | suppressed => rw [sequence_of_suppressed hph] at h; cases h; exact Env.lineKept_of_eq rfl
  | tcpBusy =>
    rw [sequence_of_tcpBusy hph] at h
    obtain ⟨u, hu, rfl⟩ := onNext_eq_next h
    obtain ⟨-, -, -, -, -, -, -, -, -, henv, -⟩ := decodeRequest_outsideSame s u hu
    exact .inl (by rw [henv]; exact ⟨rfl, rfl, rfl⟩)

/-- A poll hands no byte over. -/
theorem readOut_bytes (n : Nat) (s : State) :
    (readOut n s).env.sent = s.env.sent ∧ (readOut n s).env.inFlight = s.env.inFlight := by
  unfold readOut
  split
  · exact ⟨rfl, rfl⟩
  · split <;> exact ⟨rfl, rfl⟩

theorem accumulate_transmitted (s : State) : transmitted (accumulate s) = transmitted s := by
  unfold accumulate poll
  simp only
  split
  · split
    · rfl
    · obtain ⟨hsent, hflight⟩ := readOut_bytes s.env.rxFifo.length
        { s with det := { s.det with curCnt := s.env.rxFifo.length } }
      rw [transmitted, hsent, hflight]
  · exact s.env.tick_bytes

end Sys2Proof.Machine

/-- Settles O39, by TXPH. -/
theorem transmitEnableSequence : Obligations.TransmitEnableSequence := by
  intro s hph hs
  refine ⟨fun h => ?_, fun h hg => ?_, fun h hg => ?_, fun b rest h ht ha => ⟨s.env.txAccept b, ?_, ?_, rfl⟩,
    fun b rest h ht ha => ?_, fun h ht hc => ?_, fun h ht hc => ?_, fun h hf => ?_, fun h hf => ?_, fun h hg => ?_,
    fun h hg => step_of_waits s hs (.inr ⟨hph, h⟩) hg⟩
  · rw [step_of_reply hph hs, transmit_of_none h]
    rfl
  · rw [step_of_reply hph hs, transmit_of_guard h, whileWaiting_of_done _ s hg]
    rfl
  · rw [step_of_reply hph hs, transmit_of_preDelay h, whileWaiting_of_done _ s hg]
    rfl
  · rw [step_writeNext hph hs h ht, writeNext_of_accept ha]
  · exact s.env.txAccept_bytes b
  · rw [step_writeNext hph hs h ht, writeNext_of_block ha]
  · rw [step_queueCrc hph hs h ht hc]
    rfl
  · rw [step_toFlush hph hs h ht hc]
    rfl
  · rw [step_of_reply hph hs, transmit_of_flush h, flushPhase_of_empty hf]
    rfl
  · rw [step_of_reply hph hs, transmit_of_flush h, flushPhase, if_neg hf]
  · rw [step_of_reply hph hs, transmit_of_postDelay h, whileWaiting_of_done _ s hg]
    rfl

/-- Settles O40: the start of the data phase, a step a byte, the CRC, and the turn to Flush. -/
theorem normalReplySendsIdPduAndCrc : Obligations.NormalReplySendsIdPduAndCrc := by
  intro s hph hh htx hgap hd hl hflight htimings
  exact ⟨normalSent s, run_normalSent hph hh htx hgap ⟨hflight, htimings⟩ hd hl, rfl, rfl, rfl, hflight, rfl, rfl, rfl,
    hph⟩

/-- Settles O42: the start of the data phase, a step a byte, and the turn to Flush. -/
theorem echoReplySendsTheFrame : Obligations.EchoReplySendsTheFrame := by
  intro s hph hh htx hgap hd hl hflight htimings
  exact ⟨echoSent s, run_echoSent hph hh htx hgap ⟨hflight, htimings⟩ hd hl, rfl, rfl, rfl, hflight, rfl, rfl, hph⟩

/-- Settles O41: the way to the data phase, the data phase of O40, and the way back to Idle. -/
theorem wholeReplyEndsAfterGuardAndTwoDelays : Obligations.WholeReplyEndsAfterGuardAndTwoDelays := by
  intro s hph hh htx hd hlen hflight htimings hline
  have hat : s.env.atOnce := ⟨hflight, htimings⟩
  have hto := run_to_data hph hh hline hat htx
  have hdata := run_normalSent (s := preDelayed s) hph hh rfl rfl hat hd hlen
  have hback := run_to_idle (s := normalSent (preDelayed s)) hph hh hline hat rfl
  have hcount : s.cfg.tGuard.toNat + 2 * (t35Of s.cfg.baud).toNat + s.reply.respPduLen + 10 =
      1 + (s.cfg.tGuard.toNat + (1 + (t35Of s.cfg.baud).toNat)) +
        (s.reply.respPduLen + 6 + (1 + ((t35Of s.cfg.baud).toNat + 1))) := by omega
  have hrest := (run_add _ _ _ _ hdata).trans hback
  exact ⟨_, (congrArg (Sys2Proof.core.run · s) hcount).trans ((run_add _ _ _ _ hto).trans hrest), rfl, rfl, rfl, rfl, rfl,
    rfl, rfl⟩

/-- Settles O43: a write is taken, and its byte goes behind those handed over, or it blocks for a tick. -/
theorem dataPhaseKeepsTheByteSequence : Obligations.DataPhaseKeepsTheByteSequence := by
  intro s t hs hph htx hne hstep
  obtain ⟨b, rest, htodo⟩ := List.exists_cons_of_ne_nil hne
  rw [step_writeNext hph hs htx htodo] at hstep
  by_cases ha : s.env.nextTiming.accept = 0
  · rw [writeNext_of_accept ha] at hstep
    cases hstep
    refine ⟨?_, htx, rfl, rfl, rfl, rfl⟩
    rw [transmitted, s.env.txAccept_bytes b, htodo, List.append_assoc]
    rfl
  · rw [writeNext_of_block ha] at hstep
    cases hstep
    exact ⟨congrArg (· ++ s.tx.todo) s.env.txBlock_tick_bytes, htx, rfl, rfl, rfl, rfl⟩

/-- Settles O44: a poll hands nothing over, and every other step outside the data phase leaves the line's side or is a
tick. -/
theorem bytesAreHandedOverOnlyInTheDataPhase : Obligations.BytesAreHandedOverOnlyInTheDataPhase := by
  intro s t hs hnot hstep
  rw [step_of_hostSilent s hs] at hstep
  by_cases hph : s.phase = .accumulating
  · rw [sequence_of_accumulating hph] at hstep
    cases hstep
    exact accumulate_transmitted s
  · exact Env.lineKept_bytes (sequence_lineKept s t hph hnot hstep)

/-- Settles O46: outside Accumulating no step takes a byte from the FIFO, the data phase included. -/
theorem fifoKeepsItsBytesOutsideAccumulating : Obligations.FifoKeepsItsBytesOutsideAccumulating := by
  intro s t hs hph hstep
  rw [step_of_hostSilent s hs] at hstep
  by_cases hdata : s.phase = .reply ∧ s.tx.txph = .data
  · rw [sequence_of_reply hdata.1] at hstep
    cases hstep
    exact transmit_rxFifo s
  · exact Env.lineKept_rxFifo (sequence_lineKept s t hph hdata hstep)

/-- Settles O45: with TX_EN 1 the machine is in Reply, whose steps leave the receive side. -/
theorem noReceptionWhileTransmitting : Obligations.NoReceptionWhileTransmitting := by
  intro s t hinv hen hs hstep
  obtain ⟨-, -, ⟨hen_iff, hreply⟩, -⟩ := hinv
  rw [step_of_reply (hreply (hen_iff.mp hen)) hs] at hstep
  cases hstep
  have hfifo := transmit_rxFifo s
  rw [transmit_frame s]
  exact ⟨rfl, rfl, rfl, hfifo⟩

end

section
/-! PROOFS. The machine as a whole: what every step keeps (R8, R33, R72, R237, R268). What one host action and one step of the
sequencer can do is said once each; the invariant and the frames follow from that. -/

open Sys2Proof Sys2Proof.Machine Sys2Proof.Claims

namespace Sys2Proof.Machine

/-! ### What a decode and a PDU handler keep -/

/-- A decode keeps the form of memory. -/
theorem decodeRequest_mem_wf (s t : State) (h : decodeRequest s = .next t) (hw : s.mem.wf s.params) :
    t.mem.wf s.params := by
  have hredraw : (s.redrawB s.dec.size).mem.wf s.params := s.mem.wf_of_b s.params _ (State.redrawB_length _ s) hw
  obtain hshort | hlong := Nat.lt_or_ge s.dec.size 8
  · rw [decodeRequest_short s hshort] at h
    cases h
    exact (s.redrawB s.dec.size).mem.wf_of_b s.params ((s.redrawB s.dec.size).raise .illegalFunction).mem.b
      (State.raise_length _ _) hredraw
  · cases hd : decode ((s.redrawB s.dec.size).mem.b.drop 7) with
    | error e => simp only [decodeRequest, if_neg (Nat.not_lt.mpr hlong), hd, reduceCtorEq] at h
    | ok i =>
      rw [decodeRequest_run s i hlong hd] at h
      exact exec_mem_wf i ((s.redrawB s.dec.size).latchFc (byteAt (s.redrawB s.dec.size).mem.b 7)) t h hredraw

/-- Over a buffer of the size R8 asks for, a decode always answers (R147). -/
theorem decodeRequest_total (s : State) (hb : 268 ≤ s.mem.b.length) : ∃ t, decodeRequest s = .next t := by
  obtain hshort | hlong := Nat.lt_or_ge s.dec.size 8
  · exact ⟨_, decodeRequest_short s hshort⟩
  · obtain ⟨i, hi⟩ := decode_of_length ((s.redrawB s.dec.size).mem.b.drop 7)
      (by rw [List.length_drop, State.redrawB_length]; omega)
    rw [decodeRequest_run s i hlong hi]
    exact exec_total i _

theorem scratch_b_length (pdu : List Byte) (a : Byte) (s : State) : (scratch pdu a s).mem.b.length = s.params.bufCap :=
  (putBytes_length _ _ _).trans (freeBytes_length _ _)

/-- Either handler answers (R147, R239). -/
theorem runHandler_total (s : State) (hb : 268 ≤ s.params.bufCap) : ∃ u, runHandler s = .next u := by
  cases hq : s.env.handler with
  | nil =>
    obtain ⟨t, ht⟩ := decodeRequest_total (scratch (framePdu s) (frameAddr s) s) (by rw [scratch_b_length]; exact hb)
    rw [runHandler_default s hq, ht]
    exact ⟨_, rfl⟩
  | cons ans rest => exact ⟨_, runHandler_answer s ans rest hq⟩

/-- Either handler keeps the configuration, FRAME_LEN and the buffers, and sets RESP_PDU_LEN with RESP_PDU (R30, R233). -/
theorem runHandler_keeps (s u : State) (h : runHandler s = .next u) :
    u.cfg = s.cfg ∧ u.frameLen = s.frameLen ∧ u.mem.b = s.mem.b ∧ u.mem.frame = s.mem.frame ∧
      u.reply.respPduLen = u.reply.respPdu.length := by
  cases hq : s.env.handler with
  | nil =>
    rw [runHandler_default s hq] at h
    obtain ⟨t, ht, rfl⟩ := onNext_eq_next h
    obtain ⟨-, -, -, -, -, hlen, -, -, hcfg, -, hframe⟩ := decodeRequest_outsideSame _ t ht
    exact ⟨hcfg, hlen, rfl, hframe, rfl⟩
  | cons ans rest =>
    rw [runHandler_answer s ans rest hq] at h
    cases h
    obtain ⟨hb, hf⟩ := StoreWrite.foldl_buffers s.params ans.writes s.mem
    exact ⟨rfl, rfl, hb, hf, rfl⟩

/-- Either handler keeps the form of memory. -/
theorem runHandler_mem_wf (s u : State) (h : runHandler s = .next u) (hw : s.mem.wf s.params) : u.mem.wf s.params := by
  cases hq : s.env.handler with
  | nil =>
    rw [runHandler_default s hq] at h
    obtain ⟨t, ht, rfl⟩ := onNext_eq_next h
    have ⟨_, hb, _⟩ := hw
    have hscratch : (scratch (framePdu s) (frameAddr s) s).mem.wf s.params :=
      s.mem.wf_of_b s.params _ ((scratch_b_length _ _ s).trans hb.symm) hw
    have htw := decodeRequest_mem_wf _ t ht hscratch
    have ⟨_, htb, _⟩ := htw
    exact t.mem.wf_of_b s.params s.mem.b (hb.trans htb.symm) htw
  | cons ans rest =>
    rw [runHandler_answer s ans rest hq] at h
    cases h
    exact StoreWrite.foldl_wf s.params ans.writes s.mem hw

/-! ### What a host action can do -/

/-- What each host action leaves, and when it is carried out (R41, R45, R47, R330). -/
inductive HostEffect (s : State) : HostOp → State → Prop where
  | fill (bytes : List Byte) (hl : bytes.length ≤ s.params.bufCap) : HostEffect s (.fillBuffer bytes) (s.putB 0 bytes)
  | tcp (size : Nat) (u : State) (hi : s.phase = .idle) (hs : size ≤ s.params.bufCap)
      (hd : decodeRequest (tcpEnter size s) = .next u) : HostEffect s (.tcpProcess size) (tcpClose u)
  | cycle (hi : s.phase = .idle) (hc : configured s.cfg = true) (hb : s.cfg.baud ≠ 0#32) :
      HostEffect s .rtuCycle (rtuEnter s)
  | readBit (sp : BitSpace) (a : Nat) (hi : s.phase = .idle) (ha : a < sp.cap s.params) :
      HostEffect s (.readBit sp a) (s.answer (.bit (s.mem.readBit sp a)))
  | writeBit (sp : BitSpace) (a : Nat) (v : BitVec 1) (hi : s.phase = .idle) (ha : a < sp.cap s.params) :
      HostEffect s (.writeBit sp a v) { s with mem := s.mem.writeBit sp a v }
  | readReg (sp : RegSpace) (a : Nat) (hi : s.phase = .idle) (ha : a < sp.cap s.params) :
      HostEffect s (.readReg sp a) (s.answer (.reg (s.mem.readReg sp a)))
  | writeReg (sp : RegSpace) (a : Nat) (v : Word) (hi : s.phase = .idle) (ha : a < sp.cap s.params) :
      HostEffect s (.writeReg sp a v) { s with mem := s.mem.writeReg sp a v }
  | readConfig (r : CfgReg) (hi : s.phase = .idle) : HostEffect s (.readConfig r) (s.answer (.config (s.cfg.read r)))
  | writeSlaveId (v : Byte) (hi : s.phase = .idle) :
      HostEffect s (.writeSlaveId v) { s with cfg := { s.cfg with slaveId := v, slaveIdWritten := true } }
  | writeBaud (v : Tick) (hi : s.phase = .idle) :
      HostEffect s (.writeBaud v) { s with cfg := { s.cfg with baud := v, baudWritten := true } }
  | writeGuard (v : Tick) (hi : s.phase = .idle) :
      HostEffect s (.writeGuard v) { s with cfg := { s.cfg with tGuard := v, tGuardWritten := true } }
  | reset : HostEffect s .reset (hostReset s)

theorem onlyIdle_eq_next {r : Refusal} {s t : State} {f : Result} (h : onlyIdle r s f = .next t) :
    s.phase = .idle ∧ f = .next t := by
  by_cases hi : s.phase = .idle
  · rw [onlyIdle_of_idle r s f hi] at h
    exact ⟨hi, h⟩
  · rw [onlyIdle_of_busy r s f hi] at h
    cases h

theorem storeAccess_eq_next {n a : Nat} {s t u : State} (h : storeAccess n a s t = .next u) :
    s.phase = .idle ∧ a < n ∧ t = u := by
  obtain ⟨hi, hf⟩ := onlyIdle_eq_next h
  split at hf
  · next hin =>
    cases hf
    exact ⟨hi, (inRange_iff n a).mp hin, rfl⟩
  · cases hf

theorem configAccess_eq_next {s t u : State} (h : configAccess s t = .next u) : s.phase = .idle ∧ t = u := by
  obtain ⟨hi, hf⟩ := onlyIdle_eq_next h
  cases hf
  exact ⟨hi, rfl⟩

/-- A host action that is carried out has its effect. -/
theorem hostOp_effect {op : HostOp} {s t : State} (h : hostOp op s = .next t) : HostEffect s op t := by
  cases op with
  | fillBuffer bytes =>
    simp only [hostOp, fillBuffer] at h
    split at h
    · next hl => cases h; exact .fill bytes hl
    · cases h
  | tcpProcess size =>
    obtain ⟨hi, hf⟩ := onlyIdle_eq_next h
    split at hf
    · next hs =>
      obtain ⟨u, hu, rfl⟩ := onNext_eq_next hf
      exact .tcp size u hi hs hu
    · cases hf
  | rtuCycle =>
    obtain ⟨hi, hf⟩ := onlyIdle_eq_next h
    split at hf
    · next hc =>
      split at hf
      · cases hf
      · next hb => cases hf; exact .cycle hi hc hb
    · cases hf
  | readBit sp a => obtain ⟨hi, ha, rfl⟩ := storeAccess_eq_next h; exact .readBit sp a hi ha
  | writeBit sp a v => obtain ⟨hi, ha, rfl⟩ := storeAccess_eq_next h; exact .writeBit sp a v hi ha
  | readReg sp a => obtain ⟨hi, ha, rfl⟩ := storeAccess_eq_next h; exact .readReg sp a hi ha
  | writeReg sp a v => obtain ⟨hi, ha, rfl⟩ := storeAccess_eq_next h; exact .writeReg sp a v hi ha
  | readConfig r => obtain ⟨hi, rfl⟩ := configAccess_eq_next h; exact .readConfig r hi
  | writeSlaveId v => obtain ⟨hi, rfl⟩ := configAccess_eq_next h; exact .writeSlaveId v hi
  | writeBaud v => obtain ⟨hi, rfl⟩ := configAccess_eq_next h; exact .writeBaud v hi
  | writeGuard v => obtain ⟨hi, rfl⟩ := configAccess_eq_next h; exact .writeGuard v hi
  | reset => cases h; exact .reset

/-! ### What a step of the sequencer can change -/

theorem accumulate_frame (s : State) : accumulate s = { s with
    phase := (accumulate s).phase, det := (accumulate s).det, gapTimer := (accumulate s).gapTimer
    frameLen := (accumulate s).frameLen, mem := { s.mem with frame := (accumulate s).mem.frame }
    env := (accumulate s).env } := by
  unfold accumulate poll readOut
  simp only
  split
  · split
    · rfl
    · split
      · rfl
      · split <;> rfl
  · rfl

/-- The fields of the whole machine that a step of the sequencer keeps: the parameters and the configuration always; B but
in a TCP decode; the store but in a decode or dispatch. -/
theorem sequence_keeps (s t : State) (h : sequence s = .next t) :
    t.params = s.params ∧ t.cfg = s.cfg ∧
      (s.phase ≠ .tcpBusy → t.mem.b = s.mem.b ∧
        (s.phase ≠ .dispatched →
          t.mem.di = s.mem.di ∧ t.mem.co = s.mem.co ∧ t.mem.ir = s.mem.ir ∧ t.mem.hr = s.mem.hr)) := by
  cases hph : s.phase with
  | idle =>
    rw [sequence_of_idle hph] at h
    cases h
    exact ⟨rfl, rfl, fun _ => ⟨rfl, fun _ => ⟨rfl, rfl, rfl, rfl⟩⟩⟩
  | accumulating =>
    rw [sequence_of_accumulating hph, accumulate_frame] at h
    cases h
    exact ⟨rfl, rfl, fun _ => ⟨rfl, fun _ => ⟨rfl, rfl, rfl, rfl⟩⟩⟩
  | frameReady =>
    rw [sequence_of_frameReady hph, validate_frame] at h
    cases h
    exact ⟨rfl, rfl, fun _ => ⟨rfl, fun _ => ⟨rfl, rfl, rfl, rfl⟩⟩⟩
  | dispatched =>
    rw [sequence_of_dispatched hph] at h
    obtain ⟨u, hu, rfl⟩ := onNext_eq_next h
    obtain ⟨hparams, -, -⟩ := runHandler_frame s u hu
    obtain ⟨hcfg, -, hb, -, -⟩ := runHandler_keeps s u hu
    exact ⟨hparams, hcfg, fun _ => ⟨hb, fun hne => absurd rfl hne⟩⟩
  | reply =>
    rw [sequence_of_reply hph, transmit_frame] at h
    cases h
    exact ⟨rfl, rfl, fun _ => ⟨rfl, fun _ => ⟨rfl, rfl, rfl, rfl⟩⟩⟩
  | suppressed =>
    rw [sequence_of_suppressed hph] at h
    cases h
    exact ⟨rfl, rfl, fun _ => ⟨rfl, fun _ => ⟨rfl, rfl, rfl, rfl⟩⟩⟩
  | tcpBusy =>
    rw [sequence_of_tcpBusy hph] at h
    obtain ⟨u, hu, rfl⟩ := onNext_eq_next h
    obtain ⟨hparams, -, -, -, -, -, -, -, hcfg, -, -⟩ := decodeRequest_outsideSame s u hu
    exact ⟨hparams, hcfg, fun hne => absurd rfl hne⟩

/-! ### The invariant -/

/-- A step that keeps the fields the invariant speaks of, and the form of memory. -/
theorem State.inv_of_kept {s t : State} (hinv : s.Inv) (hparams : t.params = s.params) (hmem : t.mem.wf s.params)
    (hphase : t.phase = s.phase) (htx : t.tx = s.tx) (hcfg : t.cfg = s.cfg) (hlen : t.frameLen = s.frameLen)
    (hreply : t.reply = s.reply) : t.Inv := by
  obtain ⟨hp, -, htxl, hcyc, hframe, hrep, hbusy⟩ := hinv
  unfold State.Inv State.txLegal State.cycleConfigured State.frameLegal State.replyLegal
  rw [hparams, hphase, htx, hcfg, hlen, hreply]
  exact ⟨hp, hmem, htxl, hcyc, hframe, hrep, hbusy⟩

/-- A step of a running cycle before its reply: TX_EN is 0 and stays, and the configuration stays written. -/
theorem State.inv_of_cycle {s t : State} (hinv : s.Inv) (hne : s.phase ≠ .idle) (hnr : s.phase ≠ .reply)
    (hparams : t.params = s.params) (hmem : t.mem.wf s.params) (htx : t.tx = s.tx) (hcfg : t.cfg = s.cfg)
    (hframe : t.frameLegal) (hreply : t.replyLegal) (hbusy : t.phase ≠ .tcpBusy) : t.Inv := by
  obtain ⟨hp, -, ⟨hen, hph⟩, hcyc, -, -, hnb⟩ := hinv
  refine ⟨by rwa [hparams], by rwa [hparams], ⟨by rwa [htx], fun h => ?_⟩, fun _ _ => ?_, hframe, hreply, hbusy⟩
  · exact absurd (hph (by rwa [htx] at h)) hnr
  · rw [hcfg]
    exact hcyc hne hnb

theorem State.inv_of_tick {s : State} (hinv : s.Inv) : s.tick.Inv :=
  State.inv_of_kept hinv rfl hinv.mem_wf rfl rfl rfl rfl rfl

/-- R222 to R224: a frame that is read out fits into FRAME. -/
theorem accumulate_inv {s : State} (hinv : s.Inv) (hph : s.phase = .accumulating) : (accumulate s).Inv := by
  by_cases hgap : s.gapTimer = 0#32
  · rw [accumulate_of_gapTimer_zero s hgap]
    have ⟨_, hmem, _, _, ⟨hlen, _⟩, ⟨hpdu, _⟩, _⟩ := hinv
    have hne : s.phase ≠ .idle := by rw [hph]; nofun
    have hnr : s.phase ≠ .reply := by rw [hph]; nofun
    by_cases hgrow : s.det.prevCnt < s.env.rxFifo.length
    · rw [poll_of_growth s hgrow]
      exact State.inv_of_kept hinv rfl hmem rfl rfl rfl rfl rfl
    · have hstop : s.env.rxFifo.length ≤ s.det.prevCnt := Nat.le_of_not_lt hgrow
      by_cases hzero : s.env.rxFifo.length = 0
      · rw [poll_of_empty s (List.length_eq_zero_iff.mp hzero)]
        exact State.inv_of_cycle hinv hne hnr rfl hmem rfl rfl ⟨hlen, nofun⟩ ⟨hpdu, nofun⟩ nofun
      · by_cases hover : s.params.rxCap < s.env.rxFifo.length
        · rw [poll_of_oversize s hstop hzero hover]
          exact State.inv_of_cycle hinv hne hnr rfl hmem rfl rfl ⟨hlen, nofun⟩ ⟨hpdu, nofun⟩ nofun
        · rw [poll_of_complete s hstop hzero (Nat.le_of_not_lt hover)]
          exact State.inv_of_cycle hinv hne hnr rfl (s.mem.wf_of_frame s.params _ (putBytes_length _ _ _) hmem) rfl rfl
            ⟨Nat.le_of_not_lt hover, nofun⟩ ⟨hpdu, nofun⟩ nofun
  · rw [accumulate_of_running s hgap]
    exact State.inv_of_tick hinv

/-- R226: a frame that is dispatched passed the length check. -/
theorem validate_inv {s : State} (hinv : s.Inv) (hph : s.phase = .frameReady) : (validate s).Inv := by
  have ⟨_, hmem, _, _, ⟨hlen, _⟩, ⟨hpdu, _⟩, _⟩ := hinv
  have hphase := validate_phase s
  rw [validate_frame]
  refine State.inv_of_cycle hinv (by rw [hph]; nofun) (by rw [hph]; nofun) rfl hmem rfl rfl ⟨hlen, fun hd => ?_⟩
    ⟨hpdu, fun hr => ?_⟩ ?_
  · by_cases hv : frameValid s
    · exact hv.1
    · rw [if_neg hv] at hphase
      exact absurd (hphase.symm.trans hd) nofun
  · rw [hphase] at hr
    split at hr <;> cases hr
  · rw [hphase]
    split <;> nofun

/-- R231, R233: a Suppressed disposition never reaches Reply. -/
theorem dispatch_inv {s u : State} (hinv : s.Inv) (hph : s.phase = .dispatched) (h : runHandler s = .next u) :
    (afterHandler (frameAddr s) u).Inv := by
  have ⟨_, hmem, _, _, ⟨hlen, _⟩, _, _⟩ := hinv
  obtain ⟨hparams, htx, -⟩ := runHandler_frame s u h
  obtain ⟨hcfg, hflen, -, -, hpdu⟩ := runHandler_keeps s u h
  have hphase := afterHandler_phase (frameAddr s) u
  refine State.inv_of_cycle hinv (by rw [hph]; nofun) (by rw [hph]; nofun) hparams (runHandler_mem_wf s u h hmem) htx hcfg
    ⟨?_, fun hd => ?_⟩ ⟨hpdu, fun hr hsup => ?_⟩ ?_
  · change u.frameLen ≤ u.params.rxCap
    rwa [hflen, hparams]
  · rw [hphase] at hd
    split at hd <;> cases hd
  · rw [hphase, if_pos hsup] at hr
    cases hr
  · rw [hphase]
    split <;> nofun

/-! ### The invariant in the transmission sequence (R22, R268) -/

theorem State.txLegal_of_active {t : State} (hen : t.tx.txEn = true) (htx : t.tx.txph ≠ .none) (hph : t.phase = .reply) :
    t.txLegal :=
  ⟨⟨fun _ => htx, fun _ => hen⟩, fun _ => hph⟩

/-- A wait ends in its next state or in a tick. -/
theorem whileWaiting_txLegal {next : State → State} {s : State} (hn : (next s).txLegal) (hs : s.txLegal) :
    (whileWaiting next s).txLegal := by
  unfold whileWaiting
  split
  · exact hn
  · exact hs

theorem dataPhase_txLegal {s : State} (hen : s.tx.txEn = true) (htx : s.tx.txph = .data) (hph : s.phase = .reply) :
    (dataPhase s).txLegal := by
  have hactive : s.tx.txph ≠ .none := by rw [htx]; nofun
  unfold dataPhase writeNext
  split
  · split
    · exact State.txLegal_of_active hen hactive hph
    · exact State.txLegal_of_active hen hactive hph
  · split
    · exact State.txLegal_of_active hen hactive hph
    · exact State.txLegal_of_active hen nofun hph

theorem endReply_txLegal (s : State) : (endReply s).txLegal :=
  ⟨⟨nofun, fun h => absurd rfl h⟩, fun h => absurd rfl h⟩

theorem transmit_txLegal {s : State} (hs : s.txLegal) (hph : s.phase = .reply) : (transmit s).txLegal := by
  have hen (h : s.tx.txph ≠ .none) : s.tx.txEn = true := hs.1.mpr h
  cases htx : s.tx.txph with
  | none => rw [transmit_of_none htx]; exact State.txLegal_of_active rfl nofun hph
  | guard =>
    rw [transmit_of_guard htx]
    exact whileWaiting_txLegal (State.txLegal_of_active (hen (by rw [htx]; nofun)) nofun hph) hs
  | preDelay =>
    rw [transmit_of_preDelay htx]
    exact whileWaiting_txLegal (State.txLegal_of_active (hen (by rw [htx]; nofun)) nofun hph) hs
  | data => rw [transmit_of_data htx]; exact dataPhase_txLegal (hen (by rw [htx]; nofun)) htx hph
  | flush =>
    rw [transmit_of_flush htx, flushPhase]
    split
    · exact State.txLegal_of_active (hen (by rw [htx]; nofun)) nofun hph
    · exact hs
  | postDelay => rw [transmit_of_postDelay htx]; exact whileWaiting_txLegal (endReply_txLegal s) hs

theorem transmit_inv {s : State} (hinv : s.Inv) (hph : s.phase = .reply) : (transmit s).Inv := by
  have ⟨hp, hmem, htx, hcyc, ⟨hlen, _⟩, ⟨hpdu, hdisp⟩, _⟩ := hinv
  have htx' := transmit_txLegal htx hph
  have hphase := transmit_phase s
  have hends : (transmit s).phase = .idle ∨ (transmit s).phase = .reply := by
    rw [hphase]
    split
    · exact .inl rfl
    · exact .inr hph
  rw [transmit_frame] at htx' ⊢
  refine ⟨hp, hmem, htx', fun _ _ => hcyc (by rw [hph]; nofun) (by rw [hph]; nofun), ⟨hlen, fun hd => ?_⟩,
    ⟨hpdu, fun _ => hdisp hph⟩, fun hb => ?_⟩
  · obtain he | he := hends <;> cases he.symm.trans hd
  · obtain he | he := hends <;> cases he.symm.trans hb

/-! ### Every step -/

theorem sequence_inv {s t : State} (hinv : s.Inv) (h : sequence s = .next t) : t.Inv := by
  cases hph : s.phase with
  | idle => rw [sequence_of_idle hph] at h; cases h; exact State.inv_of_tick hinv
  | accumulating => rw [sequence_of_accumulating hph] at h; cases h; exact accumulate_inv hinv hph
  | frameReady => rw [sequence_of_frameReady hph] at h; cases h; exact validate_inv hinv hph
  | dispatched =>
    rw [sequence_of_dispatched hph] at h
    obtain ⟨u, hu, rfl⟩ := onNext_eq_next h
    exact dispatch_inv hinv hph hu
  | reply => rw [sequence_of_reply hph] at h; cases h; exact transmit_inv hinv hph
  | suppressed =>
    rw [sequence_of_suppressed hph] at h
    cases h
    have ⟨_, hmem, _, _, ⟨hlen, _⟩, ⟨hpdu, _⟩, _⟩ := hinv
    exact State.inv_of_cycle hinv (by rw [hph]; nofun) (by rw [hph]; nofun) rfl hmem rfl rfl ⟨hlen, nofun⟩ ⟨hpdu, nofun⟩
      nofun
  | tcpBusy => exact absurd hph hinv.phase_ne_tcpBusy

/-- An idle state has the invariant when its transmitter rests and its lengths are legal: no cycle runs. -/
theorem State.inv_of_idle {t : State} (hp : t.params.wf) (hmem : t.mem.wf t.params) (hph : t.phase = .idle)
    (hen : t.tx.txEn = false) (htx : t.tx.txph = .none) (hlen : t.frameLen ≤ t.params.rxCap)
    (hpdu : t.reply.respPduLen = t.reply.respPdu.length) : t.Inv := by
  refine ⟨hp, hmem, ⟨by simp [hen, htx], fun h => absurd htx h⟩, fun h => absurd hph h, ⟨hlen, fun h => ?_⟩,
    ⟨hpdu, fun h => ?_⟩, fun h => ?_⟩
  · cases hph.symm.trans h
  · cases hph.symm.trans h
  · cases hph.symm.trans h

/-- While Idle the transmitter rests (R268). -/
theorem State.Inv.tx_rests {s : State} (hinv : s.Inv) (hi : s.phase = .idle) :
    s.tx.txEn = false ∧ s.tx.txph = .none := by
  obtain ⟨-, -, ⟨hen, hph⟩, -⟩ := hinv
  have htx : s.tx.txph = .none := by
    by_contra hne
    cases hi.symm.trans (hph hne)
  exact ⟨Bool.eq_false_iff.mpr fun h => hen.mp h htx, htx⟩

theorem State.resetWith_inv (p : Params) (hp : p.wf) : (State.resetWith p).Inv :=
  State.inv_of_idle hp (State.resetWith_mem_wf p) rfl rfl rfl (Nat.zero_le _) rfl

theorem hostReset_inv {s : State} (hp : s.params.wf) : (hostReset s).Inv := by
  have hmem : (hostReset s).mem.wf s.params := by
    simp [hostReset, State.resetWith, Memory.wf, Cells.wf]
  exact State.inv_of_idle hp hmem rfl rfl rfl (Nat.zero_le _) rfl

/-- A write of a configuration register while Idle. -/
theorem cfg_inv {s : State} (hinv : s.Inv) (hi : s.phase = .idle) (c : CfgRegs) : State.Inv { s with cfg := c } := by
  have ⟨hp, hmem, _, _, ⟨hlen, _⟩, ⟨hpdu, _⟩, _⟩ := hinv
  obtain ⟨hen, htx⟩ := hinv.tx_rests hi
  exact State.inv_of_idle hp hmem hi hen htx hlen hpdu

theorem rtuEnter_inv {s : State} (hinv : s.Inv) (hi : s.phase = .idle) (hc : configured s.cfg = true)
    (hb : s.cfg.baud ≠ 0#32) : (rtuEnter s).Inv := by
  have ⟨hp, hmem, _, _, ⟨hlen, _⟩, ⟨hpdu, _⟩, _⟩ := hinv
  obtain ⟨hen, htx⟩ := hinv.tx_rests hi
  exact ⟨hp, hmem, ⟨by simp [rtuEnter, hen, htx], fun h => absurd htx h⟩, fun _ _ => ⟨hc, hb⟩, ⟨hlen, nofun⟩,
    ⟨hpdu, nofun⟩, nofun⟩

theorem hostEffect_inv {s t : State} {op : HostOp} (hinv : s.Inv) (h : HostEffect s op t) : t.Inv := by
  have hmem := hinv.mem_wf
  cases h with
  | fill bytes _ =>
    exact State.inv_of_kept hinv rfl (s.mem.wf_of_b s.params _ (putBytes_length _ _ _) hmem) rfl rfl rfl rfl rfl
  | tcp size u hi _ hd =>
    obtain ⟨hparams, -, -, -, -, hlen, hreply, htx, hcfg, -, -⟩ := decodeRequest_outsideSame _ u hd
    exact State.inv_of_kept hinv hparams (decodeRequest_mem_wf (tcpEnter size s) u hd hmem) hi.symm htx hcfg hlen hreply
  | cycle hi hc hb => exact rtuEnter_inv hinv hi hc hb
  | readBit sp a _ _ => exact State.inv_of_kept hinv rfl hmem rfl rfl rfl rfl rfl
  | writeBit sp a v _ ha =>
    exact State.inv_of_kept hinv rfl (Memory.writeBit_wf s.params s.mem sp a v ha hmem) rfl rfl rfl rfl rfl
  | readReg sp a _ _ => exact State.inv_of_kept hinv rfl hmem rfl rfl rfl rfl rfl
  | writeReg sp a v _ ha =>
    exact State.inv_of_kept hinv rfl (Memory.writeReg_wf s.params s.mem sp a v ha hmem) rfl rfl rfl rfl rfl
  | readConfig r _ => exact State.inv_of_kept hinv rfl hmem rfl rfl rfl rfl rfl
  | writeSlaveId v hi => exact cfg_inv hinv hi _
  | writeBaud v hi => exact cfg_inv hinv hi _
  | writeGuard v hi => exact cfg_inv hinv hi _
  | reset => exact hostReset_inv hinv.1

theorem popped_inv {s : State} (hinv : s.Inv) : (popped s).Inv :=
  State.inv_of_kept hinv rfl hinv.mem_wf rfl rfl rfl rfl rfl

/-- No host action changes a parameter (R8). -/
theorem hostEffect_params {s t : State} {op : HostOp} (h : HostEffect s op t) : t.params = s.params := by
  cases h with
  | tcp size u _ _ hd => exact (decodeRequest_outsideSame _ u hd).1
  | _ => rfl

/-- Of the host's actions only an accepted cycle and a reset move PHASE. -/
theorem hostEffect_phase {s t : State} {op : HostOp} (h : HostEffect s op t) (hc : op ≠ .rtuCycle) (hr : op ≠ .reset) :
    t.phase = s.phase := by
  cases h with
  | tcp size u hi _ _ => exact hi.symm
  | cycle => exact absurd rfl hc
  | reset => exact absurd rfl hr
  | _ => rfl

/-- Of the host's actions only its configuration writes and a reset move the configuration (R33, R346). -/
theorem hostEffect_cfg {s t : State} {op : HostOp} (h : HostEffect s op t) : t.cfg = s.cfg ∨ op = .reset ∨
    (∃ v, op = .writeSlaveId v) ∨ (∃ v, op = .writeBaud v) ∨ ∃ v, op = .writeGuard v := by
  cases h with
  | tcp size u _ _ hd =>
    obtain ⟨-, -, -, -, -, -, -, -, hcfg, -, -⟩ := decodeRequest_outsideSame _ u hd
    exact .inl hcfg
  | writeSlaveId v => exact .inr (.inr (.inl ⟨v, rfl⟩))
  | writeBaud v => exact .inr (.inr (.inr (.inl ⟨v, rfl⟩)))
  | writeGuard v => exact .inr (.inr (.inr (.inr ⟨v, rfl⟩)))
  | reset => exact .inr (.inl rfl)
  | _ => exact .inl rfl

/-- A step that answers is a host action with its effect, or the sequencer's. -/
theorem step_next_kind {s t : State} (h : step s = .next t) :
    (∃ op, issues s op ∧ HostEffect (popped s) op t) ∨ (hostSilent s ∧ sequence s = .next t) := by
  obtain ⟨op, hop, hstep⟩ | ⟨hs, hstep⟩ := step_kind s
  · exact .inl ⟨op, hop, hostOp_effect (hstep.symm.trans h)⟩
  · exact .inr ⟨hs, hstep.symm.trans h⟩

theorem step_next_of_issues {s t : State} {op : HostOp} (hop : issues s op) (h : step s = .next t) :
    HostEffect (popped s) op t :=
  hostOp_effect ((step_of_issues hop).symm.trans h)

/-! ### No fault (R147, R239; 93 Part 2) -/

theorem onlyIdle_ne_fault {r : Refusal} {s : State} {f : Result} {e : Fault} (h : f ≠ .fault e) :
    onlyIdle r s f ≠ .fault e := by
  unfold onlyIdle
  split
  · exact h
  · nofun

theorem storeAccess_ne_fault (n a : Nat) (s t : State) (e : Fault) : storeAccess n a s t ≠ .fault e := by
  apply onlyIdle_ne_fault
  split <;> nofun

theorem configAccess_ne_fault (s t : State) (e : Fault) : configAccess s t ≠ .fault e := onlyIdle_ne_fault nofun

theorem hostOp_ne_fault (op : HostOp) (s : State) (hb : 268 ≤ s.mem.b.length) (e : Fault) : hostOp op s ≠ .fault e := by
  cases op with
  | fillBuffer bytes =>
    simp only [hostOp, fillBuffer]
    split <;> nofun
  | tcpProcess size =>
    apply onlyIdle_ne_fault
    split
    · obtain ⟨u, hu⟩ := decodeRequest_total (tcpEnter size s) hb
      rw [tcpRun_eq, hu]
      nofun
    · nofun
  | rtuCycle =>
    apply onlyIdle_ne_fault
    split
    · split <;> nofun
    · nofun
  | readBit sp a => exact storeAccess_ne_fault _ _ _ _ e
  | writeBit sp a v => exact storeAccess_ne_fault _ _ _ _ e
  | readReg sp a => exact storeAccess_ne_fault _ _ _ _ e
  | writeReg sp a v => exact storeAccess_ne_fault _ _ _ _ e
  | readConfig r => exact configAccess_ne_fault _ _ e
  | writeSlaveId v => exact configAccess_ne_fault _ _ e
  | writeBaud v => exact configAccess_ne_fault _ _ e
  | writeGuard v => exact configAccess_ne_fault _ _ e
  | reset => nofun

/-- The sequencer always has a next state. -/
theorem sequence_total (s : State) (hinv : s.Inv) : ∃ t, sequence s = .next t := by
  cases hph : s.phase with
  | idle => exact ⟨_, sequence_of_idle hph⟩
  | accumulating => exact ⟨_, sequence_of_accumulating hph⟩
  | frameReady => exact ⟨_, sequence_of_frameReady hph⟩
  | dispatched =>
    obtain ⟨u, hu⟩ := runHandler_total s hinv.bufCap_ge
    rw [sequence_of_dispatched hph, dispatchFrame, hu]
    exact ⟨_, rfl⟩
  | reply => exact ⟨_, sequence_of_reply hph⟩
  | suppressed => exact ⟨_, sequence_of_suppressed hph⟩
  | tcpBusy => exact absurd hph hinv.phase_ne_tcpBusy

end Sys2Proof.Machine

/-- Settles O54: a reset state is idle with its transmitter at rest. -/
theorem resetStateHasTheInvariant : Obligations.ResetStateHasTheInvariant :=
  ⟨State.resetWith_inv defaultParams (by decide), State.resetWith_inv⟩

/-- Settles O55: each host action and each phase of the sequencer keeps the invariant. -/
theorem everyStepKeepsTheInvariant : Obligations.EveryStepKeepsTheInvariant := by
  intro s t hinv hstep
  obtain ⟨op, -, heffect⟩ | ⟨-, hseq⟩ := step_next_kind hstep
  · exact hostEffect_inv (popped_inv hinv) heffect
  · exact sequence_inv hinv hseq

/-- Settles O56: with a buffer of the size R8 asks for every decode answers, and nothing else could fault. -/
theorem machineNeverFaults : Obligations.MachineNeverFaults := by
  intro s hinv
  have hb : 268 ≤ s.mem.b.length := hinv.b_length ▸ hinv.bufCap_ge
  obtain ⟨t, ht⟩ := sequence_total s hinv
  refine ⟨fun f => ?_, fun hs => ⟨t, (step_of_hostSilent s hs).trans ht⟩⟩
  obtain ⟨op, -, hstep⟩ | ⟨-, hstep⟩ := step_kind s
  · rw [hstep]
    exact hostOp_ne_fault op (popped s) hb f
  · rw [hstep, ht]
    nofun

/-- Settles O57, by the effects of the host's actions and the frame of the sequencer. -/
theorem parametersNeverChange : Obligations.ParametersNeverChange := by
  intro s t hstep
  obtain ⟨op, -, heffect⟩ | ⟨-, hseq⟩ := step_next_kind hstep
  · exact hostEffect_params (s := popped s) heffect
  · exact (sequence_keeps s t hseq).1

/-- Settles O58, by the frame of the sequencer. -/
theorem storeChangesOnlyInDispatch : Obligations.StoreChangesOnlyInDispatch := by
  intro s t hs hbusy hstep
  obtain ⟨-, -, hmem⟩ := sequence_keeps s t ((step_of_hostSilent s hs).symm.trans hstep)
  exact hmem hbusy

/-- Settles O59, by the effects of the host's actions and the frame of the sequencer. -/
theorem configurationChangesOnlyByTheHost : Obligations.ConfigurationChangesOnlyByTheHost := by
  intro s t hstep hne
  obtain ⟨op, hop, heffect⟩ | ⟨-, hseq⟩ := step_next_kind hstep
  · obtain hcfg | rfl | ⟨v, rfl⟩ | ⟨v, rfl⟩ | ⟨v, rfl⟩ := hostEffect_cfg heffect
    · exact absurd hcfg hne
    · exact .inl hop
    · exact .inr (.inl ⟨v, hop⟩)
    · exact .inr (.inr (.inl ⟨v, hop⟩))
    · exact .inr (.inr (.inr ⟨v, hop⟩))
  · obtain ⟨-, hcfg, -⟩ := sequence_keeps s t hseq
    exact absurd hcfg hne

/-- Settles O25, phase by phase; of the host's actions only an accepted cycle and a reset move PHASE. -/
theorem phaseFollowsTheTransitionTable : Obligations.PhaseFollowsTheTransitionTable := by
  intro s t hbusy hstep
  refine ⟨fun hs => ?_, fun hop => ?_, fun op hop hc hr =>
    hostEffect_phase (s := popped s) (step_next_of_issues hop hstep) hc hr⟩
  · rw [step_of_hostSilent s hs] at hstep
    cases hph : s.phase with
    | idle => rw [sequence_of_idle hph] at hstep; cases hstep; exact hph
    | accumulating => rw [sequence_of_accumulating hph] at hstep; cases hstep; exact accumulate_phase s hph
    | frameReady => rw [sequence_of_frameReady hph] at hstep; cases hstep; exact validate_phase s
    | dispatched =>
      rw [sequence_of_dispatched hph] at hstep
      obtain ⟨u, -, rfl⟩ := onNext_eq_next hstep
      exact afterHandler_phase (frameAddr s) u
    | reply => rw [sequence_of_reply hph] at hstep; cases hstep; rw [transmit_phase, hph]
    | suppressed => rw [sequence_of_suppressed hph] at hstep; cases hstep; rfl
    | tcpBusy => exact absurd hph hbusy
  · cases step_next_of_issues hop hstep
    rfl

end
